-- ==== Sys2Proof/Word.lean ====
section
/-! DEFINITION. The words of SD2-CLK and the packed pairs and triples the registers hold. -/

namespace Sys2Proof

/-- A host register, 32 bits (R9). A frequency register holds an unsigned number of Hz. -/
abbrev Word := BitVec 32

/-- A feed byte, a divider field, a lane of a host access. -/
abbrev Byte := BitVec 8

/-- A multiplier and a pre-divider: the fields of `FIXED_MN` and `SYN_MN_IN` (R9, R75). -/
structure MN where
  m : BitVec 16
  n : BitVec 8
  deriving DecidableEq, Repr

/-- A triple `(M, N, D)`: the fields of `PLL_RESULT` and `SYN_RESULT` (R9, R75). -/
structure Triple where
  m : BitVec 16
  n : BitVec 8
  d : BitVec 8
  deriving DecidableEq, Repr

end Sys2Proof
end

