-- ==== Sys2Proof/Config.lean ====
section
/-! DEFINITION. What an implementation of SD2-CLK fixes (R7), and the free values. -/

namespace Sys2Proof

/-- How the value of a port operand becomes the bits of a plant register's field (R63). -/
inductive ValueCode where
  /-- The value itself. -/
  | same
  /-- The value less one. -/
  | minusOne
  /-- A finite table of (value, bits). -/
  | table (codes : List (Nat × Nat))
  deriving DecidableEq, Repr

/-- The bits a value has under a value code; `none` where the code has none for it. -/
def ValueCode.bits (c : ValueCode) (v : Nat) : Option Nat :=
  match c with
  | .same => some v
  | .minusOne => if v = 0 then none else some (v - 1)
  | .table codes => codes.lookup v

/-- One field of a plant register: its address, its lowest bit, its width and its value code. -/
structure PlantField where
  addr : Nat
  lo : Nat
  width : Nat
  code : ValueCode
  deriving DecidableEq, Repr

/-- Both answers of a status bit have bits in the field, and not the same ones, so that a read's
answer can be turned back into its bit (R63). -/
def PlantField.readable (f : PlantField) : Bool :=
  match f.code.bits 0, f.code.bits 1 with
  | some a, some b => decide (a ≠ b) && decide (a < 2 ^ f.width) && decide (b < 2 ^ f.width)
  | some _, none => false
  | none, some _ => false
  | none, none => false

/-- The feed field of a plant register. Its values are the bytes themselves, the fixed exception of
R63, so it has no value code, and it is one byte wide. -/
structure FeedField where
  addr : Nat
  lo : Nat
  deriving DecidableEq, Repr

/-- The parameter `PORT_MAP` (R7, R63) as plain data: the field each operand of a port operation is
written to or read from. `none`, or no entry in a list, where the target chip has no such field. -/
structure PortMap where
  /-- `PW_OSCEN(k)`, by oscillator. -/
  oscEn : List (Nat × PlantField)
  /-- `PR_OSCSTAT(k)`, by oscillator. -/
  oscStat : List (Nat × PlantField)
  clkSrc : Option PlantField
  pstatEn : Option PlantField
  pstatConn : Option PlantField
  pstatLock : Option PlantField
  pconEn : Option PlantField
  pconConn : Option PlantField
  pcfgM : Option PlantField
  pcfgN : Option PlantField
  feed : Option FeedField
  cpuDiv : Option PlantField
  usbDiv : Option PlantField
  /-- `PW_PBUSDIV(n, d)`, by bus. -/
  pbusDiv : List (Nat × PlantField)
  deriving DecidableEq, Repr

/-- The `PORT_MAP` of which no part is given (R63: the source "gives no part of it"). -/
def PortMap.notGiven : PortMap :=
  { oscEn := [], oscStat := [], clkSrc := none, pstatEn := none, pstatConn := none,
    pstatLock := none, pconEn := none, pconConn := none, pcfgM := none, pcfgN := none,
    feed := none, cpuDiv := none, usbDiv := none, pbusDiv := [] }

/-- The constraint on `PORT_MAP`: each status field can be read back (R63; DEDUCED, assumption 17).
That the feed bytes are written as they are is the type of `feed`. -/
def PortMap.ok (pm : PortMap) : Bool :=
  pm.oscStat.all (fun e => e.2.readable)
  && [pm.pstatEn, pm.pstatConn, pm.pstatLock].all (fun f => f.all PlantField.readable)

/-- The parameters of R7 that the source leaves OPEN. The ones the source fixes are
`Config.dMin`, `Config.dMax`, `Config.usbRate` and `Config.pbusDivSet`. -/
structure Params where
  /-- `M_MIN` and `M_MAX`, the multiplier's range. -/
  mMin : Nat
  mMax : Nat
  /-- `N_MIN` and `N_MAX`, the pre-divider's range. -/
  nMin : Nat
  nMax : Nat
  /-- `FCCO_MIN` and `FCCO_MAX`, in Hz. -/
  fccoMin : Nat
  fccoMax : Nat
  /-- `OSC_MIN[k]` and `OSC_MAX[k]`, in Hz. -/
  oscMin : Vector Nat 4
  oscMax : Vector Nat 4
  /-- `MAX_CPU_RATE`, in Hz. -/
  maxCpuRate : Nat
  /-- `USB_DIV_SET`. -/
  usbDivSet : List Nat
  /-- `NUM_PBUS`. -/
  numPbus : Nat
  /-- `CAN6_SUPPORTED`. -/
  can6Supported : Bool
  /-- `CAN_BUSES`. -/
  canBuses : List Nat
  /-- `BOOT_RATE[d]`, one entry per domain. -/
  bootRate : List Nat
  /-- `READY_BYPASS`. -/
  readyBypass : Bool
  /-- `BLOCK_BASE`. -/
  blockBase : Nat
  /-- `PORT_MAP`. -/
  portMap : PortMap
  deriving DecidableEq, Repr

/-- `D_MIN` (R7: fixed by the source). -/
abbrev Config.dMin : Nat := 2

/-- `D_MAX` (R7: fixed by the source). -/
abbrev Config.dMax : Nat := 255

/-- `USB_RATE` in Hz (R7: fixed by the source). -/
abbrev Config.usbRate : Nat := 48000000

/-- `PBUS_DIV_SET` (R7: fixed by the source). -/
abbrev Config.pbusDivSet : List Nat := [1, 2, 4, 8]

/-- The largest value of a 32-bit frequency register. -/
abbrev Config.maxWord : Nat := 4294967295

/-- The constraints of R7's table. A set that breaks one is not a configuration of SD2-CLK (R8). -/
def Params.ok (p : Params) : Bool :=
  [decide (1 ≤ p.mMin), decide (p.mMin ≤ p.mMax), decide (p.mMax ≤ 65535),
    decide (1 ≤ p.nMin), decide (p.nMin ≤ p.nMax), decide (p.nMax ≤ 255),
    decide (1 ≤ p.fccoMin), decide (p.fccoMin ≤ p.fccoMax), decide (p.fccoMax ≤ Config.maxWord),
    decide (p.oscMin[0] ≤ p.oscMax[0]), decide (p.oscMax[0] ≤ Config.maxWord),
    decide (p.oscMin[1] ≤ p.oscMax[1]), decide (p.oscMax[1] ≤ Config.maxWord),
    decide (p.oscMin[2] ≤ p.oscMax[2]), decide (p.oscMax[2] ≤ Config.maxWord),
    decide (p.oscMin[3] ≤ p.oscMax[3]), decide (p.oscMax[3] ≤ Config.maxWord),
    decide (1 ≤ p.maxCpuRate), decide (p.maxCpuRate ≤ Config.maxWord),
    p.usbDivSet.contains 6, p.usbDivSet.all (fun u => decide (1 ≤ u) && decide (u ≤ 255)),
    decide (1 ≤ p.numPbus), decide (p.numPbus ≤ 16),
    p.canBuses.all (fun n => decide (n < p.numPbus)),
    decide (p.bootRate.length = 3 + p.numPbus),
    p.bootRate.all (fun r => decide (r ≤ Config.maxWord)),
    decide (p.blockBase % 256 = 0), p.portMap.ok].all (fun holds => holds)

/-- Profile TP (92_eei_decisions.md D49, 95_test_vectors.md): the parameter values of the spec's
test vectors, not normative. TP gives neither `BLOCK_BASE` nor `PORT_MAP`: 0 and none given
(DESIGN CHOICE, unsafe, assumption 2). -/
def Config.testProfile : Params :=
  { mMin := 6, mMax := 512, nMin := 1, nMax := 32,
    fccoMin := 275000000, fccoMax := 550000000,
    oscMin := #v[1000000, 1000000, 32768, 1000000],
    oscMax := #v[25000000, 25000000, 32768, 48000000],
    maxCpuRate := 120000000, usbDivSet := [6, 8, 10], numPbus := 2,
    can6Supported := true, canBuses := [1],
    bootRate := [4000000, 4000000, 0, 1000000, 1000000],
    readyBypass := false, blockBase := 0, portMap := .notGiven }

/-- An answer `(en_stat, conn_stat, lock)` of the port read `PR_PSTAT` (R60). -/
structure PStat where
  en : Bool
  conn : Bool
  lock : Bool
  deriving DecidableEq, Repr, Inhabited

/-- Who moves in a step: the host, the block (R15), or the platform's reset input (R150). -/
inductive Turn where
  | host
  | block
  | reset
  deriving DecidableEq, Repr, Inhabited

/-- Free value: who moves when the schedule lists no more turns (R15 "interleaved in any order").
DESIGN CHOICE, safe, assumption 3. -/
opaque Config.freeTurn : Nat → Turn

/-- Free value: the answer of a `PR_OSCSTAT` read, a draw under no law (R62). DESIGN CHOICE, safe,
assumption 5. -/
opaque Config.freeOscStat : Nat → Bool

/-- Free value: the answer of a `PR_PSTAT` read, a draw under no law (R62). DESIGN CHOICE, safe,
assumption 5. -/
opaque Config.freePstat : Nat → PStat

/-- Free value: a cached rate that R12 and R120 give no value for (the divisor is 0, or the
quotient does not fit in 32 bits). No run reaches it. DESIGN CHOICE, safe, assumption 12. -/
opaque Config.freeRate : Nat → Nat → Word

/-- Free value: the phase of a micro-step code that is never held (R30, R79). DESIGN CHOICE, safe,
assumption 14. -/
opaque Config.freePhase : BitVec 6 → BitVec 4

end Sys2Proof
end

