-- ==== Sys2Proof/Syntax.lean ====
section
/-! DEFINITION. The instructions: one constructor per row of spec/opcode_table.json (R76, R78). -/

namespace Sys2Proof

/-- The two formats of R73. -/
inductive Format where
  | cmd32
  | ustep6
  deriving DecidableEq, Repr

/-- The five host commands (R76) and the block's 21 micro-steps (R78). -/
inductive Instr where
  /-- `NOP` (R126). -/
  | nop
  /-- `INIT` (R127). -/
  | init
  /-- `SYNTH` (R89). -/
  | synth
  /-- `CHECK_FIXED` (R91). -/
  | checkFixed
  /-- `GET_RATE d` (R124); `d` is the field `ARG`, the only encoded operand (R74). -/
  | getRate (d : BitVec 8)
  /-- `U_IDLE`, 0x00 (R128). -/
  | uIdle
  /-- `U_VALIDATE`, 0x01 (R131). -/
  | uValidate
  /-- `U_OSC_EN`, 0x02 (R132). -/
  | uOscEn
  /-- `U_OSC_POLL`, 0x03 (R133). -/
  | uOscPoll
  /-- `U_DERIVE`, 0x04 (R134). -/
  | uDerive
  /-- `U_PSTAT_SAMPLE`, 0x05 (R97). -/
  | uPstatSample
  /-- `U_DISCONNECT`, 0x06 (R98). -/
  | uDisconnect
  /-- `U_DISABLE`, 0x07 (R99). -/
  | uDisable
  /-- `U_SRC_SEL`, 0x08 (R100). -/
  | uSrcSel
  /-- `U_CPU_DIV`, 0x09 (R101). -/
  | uCpuDiv
  /-- `U_CFG`, 0x0A (R102). -/
  | uCfg
  /-- `U_ENABLE`, 0x0B (R103). -/
  | uEnable
  /-- `U_LOCK_POLL`, 0x0C (R104). -/
  | uLockPoll
  /-- `U_CONNECT`, 0x0D (R105). -/
  | uConnect
  /-- `U_CONN_POLL`, 0x0E (R106). -/
  | uConnPoll
  /-- `U_FEED_AA`, 0x0F (R107). -/
  | uFeedAa
  /-- `U_FEED_55`, 0x10 (R108). -/
  | uFeed55
  /-- `U_USB_DIV`, 0x11 (R118). -/
  | uUsbDiv
  /-- `U_PBUS_DIV`, 0x12 (R119). -/
  | uPbusDiv
  /-- `U_CACHE`, 0x13 (R120). -/
  | uCache
  /-- `U_QUERY_SYNTH`, 0x14 (R90). -/
  | uQuerySynth
  deriving DecidableEq, Repr

/-- Who runs the instruction: a command is a host write, a micro-step the block's (R17). -/
def Instr.format : Instr → Format
  | .nop => .cmd32
  | .init => .cmd32
  | .synth => .cmd32
  | .checkFixed => .cmd32
  | .getRate _ => .cmd32
  | .uIdle => .ustep6
  | .uValidate => .ustep6
  | .uOscEn => .ustep6
  | .uOscPoll => .ustep6
  | .uDerive => .ustep6
  | .uPstatSample => .ustep6
  | .uDisconnect => .ustep6
  | .uDisable => .ustep6
  | .uSrcSel => .ustep6
  | .uCpuDiv => .ustep6
  | .uCfg => .ustep6
  | .uEnable => .ustep6
  | .uLockPoll => .ustep6
  | .uConnect => .ustep6
  | .uConnPoll => .ustep6
  | .uFeedAa => .ustep6
  | .uFeed55 => .ustep6
  | .uUsbDiv => .ustep6
  | .uPbusDiv => .ustep6
  | .uCache => .ustep6
  | .uQuerySynth => .ustep6

end Sys2Proof
end

