-- ==== Sys2Proof/WellFormed.lean ====
section
/-! DEFINITION. When an instruction is well formed: the one operand check of R76 and R77. -/

namespace Sys2Proof

/-- `GET_RATE d` names a domain only when `d <= 2 + NUM_PBUS` (R76, R77, R112). Every other
instruction has no operand. -/
def Instr.wellFormed (numPbus : Nat) : Instr → Bool
  | .getRate d => decide (d.toNat ≤ 2 + numPbus)
  | .nop => true
  | .init => true
  | .synth => true
  | .checkFixed => true
  | .uIdle => true
  | .uValidate => true
  | .uOscEn => true
  | .uOscPoll => true
  | .uDerive => true
  | .uPstatSample => true
  | .uDisconnect => true
  | .uDisable => true
  | .uSrcSel => true
  | .uCpuDiv => true
  | .uCfg => true
  | .uEnable => true
  | .uLockPoll => true
  | .uConnect => true
  | .uConnPoll => true
  | .uFeedAa => true
  | .uFeed55 => true
  | .uUsbDiv => true
  | .uPbusDiv => true
  | .uCache => true
  | .uQuerySynth => true

end Sys2Proof
end

