-- ==== Sys2Proof/Decode.lean ====
section
/-! DEFINITION. Decoding and encoding of command words and micro-step codes (R73 to R79). -/

namespace Sys2Proof

/-- An encoded instruction in one of the two formats of R73. -/
inductive CodeWord where
  /-- Format `CMD32`: the 32-bit value of a host write to `CMD`. -/
  | cmd32 (w : Word)
  /-- Format `USTEP6`: a 6-bit value of `ustep`. -/
  | ustep6 (u : BitVec 6)
  deriving DecidableEq, Repr

/-- Why a code word is no instruction. -/
inductive DecodeError where
  /-- `Z != 0`: bits 31:16 of a command word must be 0 (R73, R77). -/
  | reservedBits (w : Word)
  /-- `OP` in `0x05..0xFF` (R77). -/
  | reservedOpcode (op : Byte)
  /-- `ARG != 0` in a command other than `GET_RATE` (R77). -/
  | argNotZero (w : Word)
  /-- A micro-step code in `0x15..0x3F`, never held by `ustep` (R79). -/
  | noSuchMicroStep (u : BitVec 6)
  deriving DecidableEq, Repr

/-- The field `OP`, bits 7:0 of a command word (R73). -/
def cmdOp (w : Word) : Byte := w.extractLsb' 0 8

/-- The field `ARG`, bits 15:8 of a command word (R73, R74). -/
def cmdArg (w : Word) : Byte := w.extractLsb' 8 8

/-- The field `Z`, bits 31:16 of a command word (R73). -/
def cmdZ (w : Word) : BitVec 16 := w.extractLsb' 16 16

/-- A command without operand decodes only when its `ARG` is 0 (R77). -/
def withoutArg (w : Word) (i : Instr) : Except DecodeError Instr :=
  if cmdArg w = 0 then .ok i else .error (.argNotZero w)

/-- The command a word written to `CMD` stands for, as far as the word alone says (R76). The range
of `GET_RATE`'s index depends on `NUM_PBUS` and is `Instr.wellFormed`'s. -/
def decodeCmd (w : Word) : Except DecodeError Instr :=
  if cmdZ w ≠ 0 then .error (.reservedBits w)
  else match (cmdOp w).toNat with
    | 0x00 => withoutArg w .nop
    | 0x01 => withoutArg w .init
    | 0x02 => withoutArg w .synth
    | 0x03 => withoutArg w .checkFixed
    | 0x04 => .ok (.getRate (cmdArg w))
    | _ => .error (.reservedOpcode (cmdOp w))

/-- The micro-step a value of `ustep` stands for (R78). -/
def decodeUstep (u : BitVec 6) : Except DecodeError Instr :=
  match u.toNat with
  | 0x00 => .ok .uIdle
  | 0x01 => .ok .uValidate
  | 0x02 => .ok .uOscEn
  | 0x03 => .ok .uOscPoll
  | 0x04 => .ok .uDerive
  | 0x05 => .ok .uPstatSample
  | 0x06 => .ok .uDisconnect
  | 0x07 => .ok .uDisable
  | 0x08 => .ok .uSrcSel
  | 0x09 => .ok .uCpuDiv
  | 0x0A => .ok .uCfg
  | 0x0B => .ok .uEnable
  | 0x0C => .ok .uLockPoll
  | 0x0D => .ok .uConnect
  | 0x0E => .ok .uConnPoll
  | 0x0F => .ok .uFeedAa
  | 0x10 => .ok .uFeed55
  | 0x11 => .ok .uUsbDiv
  | 0x12 => .ok .uPbusDiv
  | 0x13 => .ok .uCache
  | 0x14 => .ok .uQuerySynth
  | _ => .error (.noSuchMicroStep u)

/-- The decoder, total on both formats. -/
def decode : CodeWord → Except DecodeError Instr
  | .cmd32 w => decodeCmd w
  | .ustep6 u => decodeUstep u

/-- `illegal(v)` of R125: the word decodes to no command, or to a `GET_RATE` of no domain (R77). -/
def illegalWord (numPbus : Nat) (w : Word) : Bool :=
  match decodeCmd w with
  | .ok i => !i.wellFormed numPbus
  | .error _ => true

/-- A command word of format `CMD32` from its fields, with `Z = 0` (R73). -/
def cmdWord (arg op : Byte) : CodeWord := .cmd32 ((0 : BitVec 16) ++ arg ++ op)

/-- The encoder, from the tables of R76 and R78. -/
def encode : Instr → CodeWord
  | .nop => cmdWord 0 0x00
  | .init => cmdWord 0 0x01
  | .synth => cmdWord 0 0x02
  | .checkFixed => cmdWord 0 0x03
  | .getRate d => cmdWord d 0x04
  | .uIdle => .ustep6 0x00
  | .uValidate => .ustep6 0x01
  | .uOscEn => .ustep6 0x02
  | .uOscPoll => .ustep6 0x03
  | .uDerive => .ustep6 0x04
  | .uPstatSample => .ustep6 0x05
  | .uDisconnect => .ustep6 0x06
  | .uDisable => .ustep6 0x07
  | .uSrcSel => .ustep6 0x08
  | .uCpuDiv => .ustep6 0x09
  | .uCfg => .ustep6 0x0A
  | .uEnable => .ustep6 0x0B
  | .uLockPoll => .ustep6 0x0C
  | .uConnect => .ustep6 0x0D
  | .uConnPoll => .ustep6 0x0E
  | .uFeedAa => .ustep6 0x0F
  | .uFeed55 => .ustep6 0x10
  | .uUsbDiv => .ustep6 0x11
  | .uPbusDiv => .ustep6 0x12
  | .uCache => .ustep6 0x13
  | .uQuerySynth => .ustep6 0x14

/-- The code word that a table row's bits stand for: a row of at most one byte is a micro-step
code, whose bits 7:6 must be 0, a longer one a command word. -/
def tableCodeWord (nbits w : Nat) : Option CodeWord :=
  if nbits ≤ 8 then
    if w < 64 then some (.ustep6 (BitVec.ofNat 6 w)) else none
  else
    if w < 4294967296 then some (.cmd32 (BitVec.ofNat 32 w)) else none

/-- What the decoder reads from a row of spec/opcode_table.json. -/
def decodeTableWord (nbits w : Nat) : Option Instr :=
  match tableCodeWord nbits w with
  | none => none
  | some c =>
    match decode c with
    | .ok i => some i
    | .error _ => none

/-! The codes of R78 by name, for the rules that name a successor. -/

abbrev Ucode.idle : BitVec 6 := 0x00
abbrev Ucode.validate : BitVec 6 := 0x01
abbrev Ucode.oscEn : BitVec 6 := 0x02
abbrev Ucode.oscPoll : BitVec 6 := 0x03
abbrev Ucode.derive : BitVec 6 := 0x04
abbrev Ucode.pstatSample : BitVec 6 := 0x05
abbrev Ucode.disconnect : BitVec 6 := 0x06
abbrev Ucode.disable : BitVec 6 := 0x07
abbrev Ucode.srcSel : BitVec 6 := 0x08
abbrev Ucode.cpuDiv : BitVec 6 := 0x09
abbrev Ucode.cfg : BitVec 6 := 0x0A
abbrev Ucode.enable : BitVec 6 := 0x0B
abbrev Ucode.lockPoll : BitVec 6 := 0x0C
abbrev Ucode.connect : BitVec 6 := 0x0D
abbrev Ucode.connPoll : BitVec 6 := 0x0E
abbrev Ucode.feedAa : BitVec 6 := 0x0F
abbrev Ucode.feed55 : BitVec 6 := 0x10
abbrev Ucode.usbDiv : BitVec 6 := 0x11
abbrev Ucode.pbusDiv : BitVec 6 := 0x12
abbrev Ucode.cache : BitVec 6 := 0x13
abbrev Ucode.querySynth : BitVec 6 := 0x14

end Sys2Proof
end

