-- ==== Sys2Proof/Machine/State.lean ====
section
/-! DEFINITION. The state of SD2-CLK (10_state.md), its faults and refusals, and reset (R52). -/

namespace Sys2Proof.Machine

/-- `SEQ_STATE` (R29); the values 4 to 7 are never held. -/
inductive SeqState where
  | disabled
  | enabling
  | locked
  | connected
  deriving DecidableEq, Repr

/-- The fatal fault codes of `STATUS.FAULT` (R136); 9 to 15 are never raised. -/
inductive FaultCode where
  | none
  | unsatisfiable
  | inputRange
  | invalidDivider
  | fccoRange
  | mnRange
  | cpuRate
  | usbRate
  | badMode
  deriving DecidableEq, Repr

/-- The command-error codes of `STATUS.CERR` (R139); 6 to 15 are never written. -/
inductive CmdError where
  | none
  | illegal
  | busy
  | reinit
  | halted
  | locked
  deriving DecidableEq, Repr

/-- The ten port operations (R60), a read together with its answer: the entries of the port trace
(R47, R61, R62). -/
inductive PortEvent where
  /-- `PW_OSCEN(k)`. -/
  | oscEn (k : BitVec 2)
  /-- `PR_OSCSTAT(k)` answered `stable`. -/
  | oscStat (k : BitVec 2) (stable : Bool)
  /-- `PW_CLKSRC(k)`. -/
  | clkSrc (k : BitVec 2)
  /-- `PR_PSTAT` answered `(en_stat, conn_stat, lock)`. -/
  | pstat (answer : PStat)
  /-- `PW_PCON(en, conn)`. -/
  | pcon (en conn : Bool)
  /-- `PW_PCFG(M, N)`. -/
  | pcfg (m : BitVec 16) (n : BitVec 8)
  /-- `PW_FEED(b)`. -/
  | feed (b : Byte)
  /-- `PW_CPUDIV(d)`. -/
  | cpuDiv (d : Byte)
  /-- `PW_USBDIV(d)`. -/
  | usbDiv (d : Byte)
  /-- `PW_PBUSDIV(n, d)`. -/
  | pbusDiv (n : BitVec 4) (d : Byte)
  deriving DecidableEq, Repr

/-- A host access at an absolute address (R57, R58). The size is in bytes; only 4 is admitted
(R56). -/
inductive HostAccess where
  | read (addr size : Nat)
  | write (addr size : Nat) (v : Word)
  deriving DecidableEq, Repr

/-- The host registers of R26. -/
inductive Reg where
  | cmd
  | status
  | rateOut
  | pllResult
  | oscFreq (k : BitVec 2)
  | oscEn
  | clkSrc
  | pllMode
  | desiredFreq
  | fixedMN
  | cpuDiv
  | usbCfg
  | oscStatus
  | pbusDiv (n : Nat)
  | synFin
  | synFout
  | synMNIn
  | synResult
  | synFcco
  deriving DecidableEq, Repr

/-- The access classes of R25. -/
inductive AccessClass where
  | cfg
  | qry
  | ro
  | wo
  deriving DecidableEq, Repr

/-- A triple `SEARCH` returns, or a pair with the CPU divider of the other modes, as the naturals of
the pseudocode (R12, R83, R134). -/
structure PllChoice where
  m : Nat
  n : Nat
  d : Nat
  deriving DecidableEq, Repr

/-- The answers of `CHECKFIXED` (R88). -/
inductive CheckResult where
  | ok
  | mnRange
  | fccoRange
  deriving DecidableEq, Repr

/-- What stands outside SD2-CLK: the inputs the agents of R15 have still to give and the
observation of what the host was answered. The model's own, not the spec's state (assumptions 3,
4, 5). -/
structure Environment where
  /-- Who moves in the next steps; when it is empty the turn is free. -/
  schedule : List Turn
  /-- The index of the next free turn. -/
  turns : Nat
  /-- The host accesses still to come, in the host's program order (R66). -/
  hostQueue : List HostAccess
  /-- The values host reads have returned, oldest first (R57). -/
  readLog : List Word
  /-- The next answers of `PR_OSCSTAT`; when it is empty the answer is free. -/
  oscAnswers : List Bool
  /-- The next answers of `PR_PSTAT`; when it is empty the answer is free. -/
  pstatAnswers : List PStat
  /-- The index of the next free answer. -/
  draws : Nat
  deriving DecidableEq, Repr

/-- The state (R24, R26, R44 to R47, R138), the parameters (R7), and the environment's inputs. -/
structure State where
  /-- The parameters of R7. No step writes them (assumption 1). -/
  params : Params
  /-- `STATUS.BUSY` (R28). -/
  busy : Bool
  /-- `STATUS.INIT_DONE` (R28). -/
  initDone : Bool
  /-- `STATUS.HALTED` (R28). -/
  halted : Bool
  /-- `STATUS.SYN_OK` (R28). -/
  synOk : Bool
  /-- `STATUS.SEQ_STATE` (R29). -/
  seqState : SeqState
  /-- `STATUS.FAULT` (R136). -/
  fault : FaultCode
  /-- `STATUS.CERR` (R139). -/
  cerr : CmdError
  /-- The micro-step pointer `ustep` (R44). -/
  ustep : BitVec 6
  /-- The output `fatal_o` (R138). -/
  fatalO : Bool
  /-- `RATE_OUT` (R31). -/
  rateOut : Word
  /-- `PLL_RESULT` (R32). -/
  pllResult : Triple
  /-- `OSC_STATUS.ENABLED` (R34). -/
  oscEnabled : BitVec 4
  /-- `OSC_STATUS.STABLE` (R34). -/
  oscStable : BitVec 4
  /-- `SYN_RESULT` (R33). -/
  synResult : Triple
  /-- `SYN_FCCO` (R33). -/
  synFcco : Word
  /-- `OSC_FREQ0..3` (R35). -/
  oscFreq : Vector Word 4
  /-- `OSC_EN.EN` (R35). -/
  oscEn : BitVec 4
  /-- `CLK_SRC.SRC` (R36). -/
  clkSrc : BitVec 2
  /-- `PLL_MODE.MODE` (R37). -/
  pllMode : BitVec 2
  /-- `DESIRED_FREQ` (R38). -/
  desiredFreq : Word
  /-- `FIXED_MN` (R39). -/
  fixedMN : MN
  /-- `CPU_DIV.DIV` (R40). -/
  cpuDiv : Byte
  /-- `USB_CFG.USB_EN` (R41). -/
  usbEn : Bool
  /-- `USB_CFG.USB_DIV` (R41). -/
  usbDiv : Byte
  /-- `PBUS_DIV[n].DIV` for `n < NUM_PBUS` (R42). -/
  pbusDiv : List Byte
  /-- `SYN_FIN` (R43). -/
  synFin : Word
  /-- `SYN_FOUT` (R43). -/
  synFout : Word
  /-- `SYN_MN_IN` (R43). -/
  synMN : MN
  /-- The rate cache `RATE[d]` for `d <= 2 + NUM_PBUS` (R45). -/
  rate : List Word
  /-- `h.cur_k` (R46). -/
  curK : BitVec 2
  /-- `h.cur_n` (R46). -/
  curN : BitVec 4
  /-- `h.feed_ret` (R46). -/
  feedRet : BitVec 6
  /-- `h.en0` (R46). -/
  en0 : Bool
  /-- `h.conn0` (R46). -/
  conn0 : Bool
  /-- The port trace, oldest first (R47). -/
  trace : List PortEvent
  /-- The inputs from outside. -/
  env : Environment
  deriving DecidableEq, Repr

/-- Why the machine stops with a fault. (A fatal fault of R136 is no such stop: it is a next state
with `HALTED = 1`.) -/
inductive Fault where
  /-- Raised by a host access that touches no byte of the register window: SD2-CLK is the target of
  the window only (R53). Safe: nothing is claimed of what stands elsewhere (assumption 9). -/
  | outsideWindow (addr : Nat)
  deriving DecidableEq, Repr

/-- Why the model refuses a step. -/
inductive Refusal where
  /-- Raised by `exec`'s arm of an instruction without a meaning; there is none. Safe. -/
  | notModelled (mnemonic : String)
  /-- Raised by a host access to the window that is no aligned 32-bit access: R56 "gets a bus error
  response and changes no state. The model refuses such an access: it has no step". Safe. -/
  | busError (addr size : Nat)
  /-- Raised by a step under parameters that break a constraint of R7: R8 "the model refuses it and
  gives it no meaning". Safe. -/
  | notAConfiguration
  /-- Raised by the block's turn when `ustep` holds a code of R79 that it never holds. Safe. -/
  | noSuchMicroStep (u : BitVec 6)
  /-- Raised by `U_DERIVE` when `PLL_MODE.MODE = 3`, a case R134 has no line for; `U_VALIDATE` halts
  the block before it (R131). Safe. -/
  | reservedMode
  deriving DecidableEq, Repr

/-- The outcome of a step or of a meaning. -/
abbrev Result := Host.Outcome State Fault Refusal

/-- The environment that gives no input: every turn and every answer is then a free value. -/
def Environment.empty : Environment :=
  { schedule := [], turns := 0, hostQueue := [], readLog := [], oscAnswers := [],
    pstatAnswers := [], draws := 0 }

/-- The state after reset under the parameters `p` (R52). -/
def State.resetWith (p : Params) : State :=
  { params := p,
    busy := false, initDone := false, halted := false, synOk := false,
    seqState := .disabled, fault := .none, cerr := .none, ustep := 0, fatalO := false,
    rateOut := 0, pllResult := ⟨0, 0, 0⟩, oscEnabled := 0, oscStable := 0,
    synResult := ⟨0, 0, 0⟩, synFcco := 0,
    oscFreq := #v[0, 0, 0, 0], oscEn := 0, clkSrc := 0, pllMode := 0, desiredFreq := 0,
    fixedMN := ⟨0, 0⟩, cpuDiv := 0, usbEn := false, usbDiv := 0,
    pbusDiv := List.replicate p.numPbus 0,
    synFin := 0, synFout := 0, synMN := ⟨0, 0⟩,
    rate := p.bootRate.map (BitVec.ofNat 32),
    curK := 0, curN := 0, feedRet := 0, en0 := false, conn0 := false,
    trace := [], env := .empty }

/-- The machine right after reset (R52), with profile TP for the open parameters (DESIGN CHOICE,
unsafe, assumption 2). -/
def State.reset : State := State.resetWith Config.testProfile

end Sys2Proof.Machine
end

