-- ==== Sys2Proof/Machine/Flags.lean ====
section
/-! DEFINITION. The numbers of the coded fields and the word `STATUS` (R28 to R30, R136, R139). -/

namespace Sys2Proof.Machine

/-- The value of `SEQ_STATE` (R29). -/
def seqStateCode : SeqState → BitVec 3
  | .disabled => 0
  | .enabling => 1
  | .locked => 2
  | .connected => 3

/-- The value of `FAULT` (R136). -/
def faultCode : FaultCode → BitVec 4
  | .none => 0
  | .unsatisfiable => 1
  | .inputRange => 2
  | .invalidDivider => 3
  | .fccoRange => 4
  | .mnRange => 5
  | .cpuRate => 6
  | .usbRate => 7
  | .badMode => 8

/-- The value of `CERR` (R139). -/
def cmdErrorCode : CmdError → BitVec 4
  | .none => 0
  | .illegal => 1
  | .busy => 2
  | .reinit => 3
  | .halted => 4
  | .locked => 5

/-- `phase_of(ustep)` (R30): 0 `IDLE`, 1 `VALIDATE`, 2 `OSC`, 3 `PLL`, 4 `DIVIDERS`, 5 `CACHE`,
6 `QUERY`. A code that is never held has no phase (R79): its value is free (assumption 14). -/
def phaseOf (u : BitVec 6) : BitVec 4 :=
  match decodeUstep u with
  | .ok .uIdle => 0
  | .ok .uValidate => 1
  | .ok .uOscEn => 2
  | .ok .uOscPoll => 2
  | .ok .uUsbDiv => 4
  | .ok .uPbusDiv => 4
  | .ok .uCache => 5
  | .ok .uQuerySynth => 6
  | .ok _ => 3
  | .error _ => Config.freePhase u

/-- The word a read of `STATUS` returns (R28), bit 31 first. -/
def statusWord (s : State) : Word :=
  (0 : BitVec 6) ++ s.ustep ++ cmdErrorCode s.cerr ++ faultCode s.fault ++ phaseOf s.ustep
    ++ (0 : BitVec 1) ++ seqStateCode s.seqState
    ++ BitVec.ofBool s.synOk ++ BitVec.ofBool s.halted ++ BitVec.ofBool s.initDone
    ++ BitVec.ofBool s.busy

end Sys2Proof.Machine
end

