-- ==== Sys2Proof/Machine/Operands.lean ====
section
/-! DEFINITION. The operands: the host register window (R25 to R27, R55, R57, R75), and the values
the rules compute from the configuration registers (R111, R113 to R115, R130). -/

namespace Sys2Proof.Machine

/-! ### The register window -/

/-- The offset of a host register (R26). -/
def regOffset : Reg → Nat
  | .cmd => 0x000
  | .status => 0x004
  | .rateOut => 0x008
  | .pllResult => 0x00C
  | .oscFreq k => 0x010 + 4 * k.toNat
  | .oscEn => 0x020
  | .clkSrc => 0x024
  | .pllMode => 0x028
  | .desiredFreq => 0x02C
  | .fixedMN => 0x030
  | .cpuDiv => 0x034
  | .usbCfg => 0x038
  | .oscStatus => 0x03C
  | .pbusDiv n => 0x040 + 4 * n
  | .synFin => 0x080
  | .synFout => 0x084
  | .synMNIn => 0x088
  | .synResult => 0x08C
  | .synFcco => 0x090

/-- The register at an offset of the window; `none` is a reserved offset (R26, R27). -/
def regAt (numPbus off : Nat) : Option Reg :=
  match off with
  | 0x000 => some .cmd
  | 0x004 => some .status
  | 0x008 => some .rateOut
  | 0x00C => some .pllResult
  | 0x010 => some (.oscFreq 0)
  | 0x014 => some (.oscFreq 1)
  | 0x018 => some (.oscFreq 2)
  | 0x01C => some (.oscFreq 3)
  | 0x020 => some .oscEn
  | 0x024 => some .clkSrc
  | 0x028 => some .pllMode
  | 0x02C => some .desiredFreq
  | 0x030 => some .fixedMN
  | 0x034 => some .cpuDiv
  | 0x038 => some .usbCfg
  | 0x03C => some .oscStatus
  | 0x080 => some .synFin
  | 0x084 => some .synFout
  | 0x088 => some .synMNIn
  | 0x08C => some .synResult
  | 0x090 => some .synFcco
  | off =>
    if 0x040 ≤ off ∧ off < 0x040 + 4 * numPbus ∧ off % 4 = 0 then
      some (.pbusDiv ((off - 0x040) / 4))
    else none

/-- The access class of a register (R25, R26). -/
def regClass : Reg → AccessClass
  | .cmd => .wo
  | .status => .ro
  | .rateOut => .ro
  | .pllResult => .ro
  | .oscFreq _ => .cfg
  | .oscEn => .cfg
  | .clkSrc => .cfg
  | .pllMode => .cfg
  | .desiredFreq => .cfg
  | .fixedMN => .cfg
  | .cpuDiv => .cfg
  | .usbCfg => .cfg
  | .oscStatus => .ro
  | .pbusDiv _ => .cfg
  | .synFin => .qry
  | .synFout => .qry
  | .synMNIn => .qry
  | .synResult => .ro
  | .synFcco => .ro

/-- `M` in bits 15:0 and `N` in bits 23:16 (R75). -/
def mnWord (x : MN) : Word := (0 : BitVec 8) ++ x.n ++ x.m

/-- The fields `M` and `N` of a written word; bits 31:24 are dropped (R27, R75). -/
def mnOfWord (v : Word) : MN := ⟨v.extractLsb' 0 16, v.extractLsb' 16 8⟩

/-- `zext_32(D :: N :: M)` (R75). -/
def tripleWord (t : Triple) : Word := t.d ++ t.n ++ t.m

/-- `USB_EN` in bit 0 and `USB_DIV` in bits 15:8 (R75). -/
def usbWord (en : Bool) (d : Byte) : Word :=
  (0 : BitVec 16) ++ d ++ (0 : BitVec 7) ++ BitVec.ofBool en

/-- `zext_32(STABLE :: ENABLED)` (R75). -/
def oscStatusWord (stable enabled : BitVec 4) : Word := (0 : BitVec 24) ++ stable ++ enabled

/-- The divider field of bus `n`. The list has an entry for every bus that exists; where it has none
the value is 0 (assumption 19). -/
def pbusDivOf (s : State) (n : Nat) : Byte := s.pbusDiv.getD n 0

/-- The value a host read of a register returns (R57): reserved bits 0, `CMD` 0. -/
def readReg (r : Reg) (s : State) : Word :=
  match r with
  | .cmd => 0
  | .status => statusWord s
  | .rateOut => s.rateOut
  | .pllResult => tripleWord s.pllResult
  | .oscFreq k => s.oscFreq[k.toNat]'(k.isLt)
  | .oscEn => s.oscEn.zeroExtend 32
  | .clkSrc => s.clkSrc.zeroExtend 32
  | .pllMode => s.pllMode.zeroExtend 32
  | .desiredFreq => s.desiredFreq
  | .fixedMN => mnWord s.fixedMN
  | .cpuDiv => s.cpuDiv.zeroExtend 32
  | .usbCfg => usbWord s.usbEn s.usbDiv
  | .oscStatus => oscStatusWord s.oscStable s.oscEnabled
  | .pbusDiv n => (pbusDivOf s n).zeroExtend 32
  | .synFin => s.synFin
  | .synFout => s.synFout
  | .synMNIn => mnWord s.synMN
  | .synResult => tripleWord s.synResult
  | .synFcco => s.synFcco

/-- The value a host read at an offset of the window returns; a reserved offset reads 0 (R27,
R57). -/
def windowRead (s : State) (off : Nat) : Word :=
  match regAt s.params.numPbus off with
  | some r => readReg r s
  | none => 0

/-- Store the defined fields of a written word in a `CFG` or `QRY` register (R27, R58, R75). The
other classes store nothing. -/
def storeReg (r : Reg) (v : Word) (s : State) : State :=
  match r with
  | .oscFreq k => { s with oscFreq := s.oscFreq.set k.toNat v k.isLt }
  | .oscEn => { s with oscEn := v.extractLsb' 0 4 }
  | .clkSrc => { s with clkSrc := v.extractLsb' 0 2 }
  | .pllMode => { s with pllMode := v.extractLsb' 0 2 }
  | .desiredFreq => { s with desiredFreq := v }
  | .fixedMN => { s with fixedMN := mnOfWord v }
  | .cpuDiv => { s with cpuDiv := v.extractLsb' 0 8 }
  | .usbCfg => { s with usbEn := v.getLsbD 0, usbDiv := v.extractLsb' 8 8 }
  | .pbusDiv n => { s with pbusDiv := s.pbusDiv.set n (v.extractLsb' 0 8) }
  | .synFin => { s with synFin := v }
  | .synFout => { s with synFout := v }
  | .synMNIn => { s with synMN := mnOfWord v }
  | .cmd => s
  | .status => s
  | .rateOut => s
  | .pllResult => s
  | .oscStatus => s
  | .synResult => s
  | .synFcco => s

/-- Lane `i` of a 32-bit host access: bits `[8i+7 : 8i]` of the register (R55). -/
def lane (v : Word) (i : Nat) : Byte := v.extractLsb' (8 * i) 8

/-- The word whose lanes are these bytes, lane 0 first (R55). -/
def ofLanes (b0 b1 b2 b3 : Byte) : Word := b3 ++ b2 ++ b1 ++ b0

/-! ### Modes -/

/-- `BYPASS` (R23, R37). -/
abbrev modeBypass : BitVec 2 := 0

/-- `SYNTH` (R23, R37). -/
abbrev modeSynth : BitVec 2 := 1

/-- `FIXED` (R23, R37). -/
abbrev modeFixed : BitVec 2 := 2

/-- The reserved value of `PLL_MODE.MODE` (R37). -/
abbrev modeReserved : BitVec 2 := 3

/-! ### The oscillators -/

/-- `x[OSC_FREQk]` in Hz. -/
def oscFreqOf (s : State) (k : BitVec 2) : Nat := (s.oscFreq[k.toNat]'(k.isLt)).toNat

/-- `fin = x[OSC_FREQ[x[CLK_SRC.SRC]]]` (R111). -/
def finOf (s : State) : Nat := oscFreqOf s s.clkSrc

/-- The in-use oscillators `U`, in ascending order (R130). -/
def inUse (s : State) : List (BitVec 2) :=
  ([0, 1, 2, 3] : List (BitVec 2)).filter (fun k => s.oscEn.getLsbD k.toNat || k == s.clkSrc)

/-- `min(U)` (R131). `U` is never empty (R130). -/
def minInUse (s : State) : BitVec 2 := (inUse s).headD s.clkSrc

/-- `next_osc(k)`: the smallest member of `U` above `k`, or none (R130). -/
def nextOsc (s : State) (k : BitVec 2) : Option (BitVec 2) :=
  (inUse s).find? (fun j => decide (k.toNat < j.toNat))

/-- The frequency of oscillator `k` is inside its bounds (R131). -/
def oscInRange (s : State) (k : BitVec 2) : Bool :=
  decide ((s.params.oscMin[k.toNat]'(k.isLt)) ≤ oscFreqOf s k)
  && decide (oscFreqOf s k ≤ (s.params.oscMax[k.toNat]'(k.isLt)))

/-- Set bit `k` of a 4-bit status field (R34). -/
def setBit4 (x : BitVec 4) (k : BitVec 2) : BitVec 4 := x ||| ((1 : BitVec 4) <<< k.toNat)

/-! ### Divider legality -/

/-- CPU divider legality outside the search (R113, R131): `[1, 255]` in `BYPASS`, `[2, 255]` in
`FIXED`; `CPU_DIV` is not read in `SYNTH` mode. -/
def cpuDivLegal (mode : BitVec 2) (c : Nat) : Bool :=
  if mode = modeBypass then decide (1 ≤ c) && decide (c ≤ Config.dMax)
  else if mode = modeFixed then decide (Config.dMin ≤ c) && decide (c ≤ Config.dMax)
  else true

/-- USB divider legality (R114): checked only when `USB_EN = 1`. -/
def usbDivLegal (p : Params) (en : Bool) (u : Nat) : Bool := !en || p.usbDivSet.contains u

/-- `pbus_legal(n, d)` (R115). -/
def pbusLegal (p : Params) (n d : Nat) : Bool :=
  Config.pbusDivSet.contains d || (d == 6 && p.can6Supported && p.canBuses.contains n)

/-- Every bus that exists has a legal divider (R115, R131). -/
def pbusAllLegal (s : State) : Bool :=
  (List.range s.params.numPbus).all (fun n => pbusLegal s.params n (pbusDivOf s n).toNat)

/-! ### The PLL clock -/

/-- The PLL clock `pnum / pden` of a choice `(M, N, D)` (R111, R134). -/
def pllClock (mode : BitVec 2) (fin m n : Nat) : Nat × Nat :=
  if mode = modeBypass then (fin, 1) else (2 * fin * m, n)

/-- `pll_clk()` (R111). -/
def pllClk (s : State) : Nat × Nat :=
  pllClock s.pllMode (finOf s) s.pllResult.m.toNat s.pllResult.n.toNat

/-- A cached rate: the floor of `num / den` (R120). With the divisor 0 or a quotient that does not
fit in 32 bits no rule gives a value, and it is free; no run reaches it (R12, assumption 12). -/
def rateWord (num den : Nat) : Word :=
  if den = 0 ∨ Config.maxWord < num / den then Config.freeRate num den
  else BitVec.ofNat 32 (num / den)

/-- A choice `(M, N, D)` as the fields of a result register. The values fit under the constraints of
R7 (R12). -/
def choiceTriple (c : PllChoice) : Triple :=
  ⟨BitVec.ofNat 16 c.m, BitVec.ofNat 8 c.n, BitVec.ofNat 8 c.d⟩

end Sys2Proof.Machine
end

