-- ==== Sys2Proof/Machine/Ops.lean ====
section
/-! DEFINITION. The named operations the rules share: the port (R61, R62), the successor of a
micro-step (R44), a fatal fault (R137) and the reset that alone ends it (R150), a command error
(R140) and command acceptance (R125). -/

namespace Sys2Proof.Machine

/-! ### The port -/

/-- `PortWrite(op)`, and the recording half of `PortRead(op)`: append to the port trace (R61,
R62). -/
def emit (e : PortEvent) (s : State) : State := { s with trace := s.trace ++ [e] }

/-- The environment's next answer to a `PR_OSCSTAT` read: the next listed one, else a free value
(R62, assumption 5). -/
def drawOscStat (e : Environment) : Bool × Environment :=
  match e.oscAnswers with
  | a :: rest => (a, { e with oscAnswers := rest })
  | [] => (Config.freeOscStat e.draws, { e with draws := e.draws + 1 })

/-- The environment's next answer to a `PR_PSTAT` read: the next listed one, else a free value
(R62, assumption 5). -/
def drawPstat (e : Environment) : PStat × Environment :=
  match e.pstatAnswers with
  | a :: rest => (a, { e with pstatAnswers := rest })
  | [] => (Config.freePstat e.draws, { e with draws := e.draws + 1 })

/-- The answer the next `PR_OSCSTAT` read gets. -/
def oscStatAnswer (s : State) : Bool := (drawOscStat s.env).1

/-- The answer the next `PR_PSTAT` read gets. -/
def pstatAnswer (s : State) : PStat := (drawPstat s.env).1

/-- `PortRead(PR_OSCSTAT(k))`: the state after it; the answer is `oscStatAnswer` (R62). -/
def afterOscStat (k : BitVec 2) (s : State) : State :=
  emit (.oscStat k (oscStatAnswer s)) { s with env := (drawOscStat s.env).2 }

/-- `PortRead(PR_PSTAT)`: the state after it; the answer is `pstatAnswer` (R62). -/
def afterPstat (s : State) : State :=
  emit (.pstat (pstatAnswer s)) { s with env := (drawPstat s.env).2 }

/-- The readiness predicate `READY_BYPASS or bit = 1` (R96). -/
def ready (s : State) (bit : Bool) : Bool := s.params.readyBypass || bit

/-! ### The micro-step pointer -/

/-- `pc <- u` (R13, R44). -/
def goto (u : BitVec 6) (s : State) : State := { s with ustep := u }

/-- A change's last two lines: return to `ret` after the feed, and enter the feed (R98, R99, R102,
R103, R105). -/
def enterFeed (ret : BitVec 6) (s : State) : State := goto Ucode.feedAa { s with feedRet := ret }

/-- `enter_dividers()` (R117). -/
def enterDividers (s : State) : State :=
  goto (if s.usbEn then Ucode.usbDiv else Ucode.pbusDiv) { s with curN := 0 }

/-! ### Faults and reset -/

/-- `raise Fatal(code)` (R137): `ustep` keeps the code of the faulting micro-step, whose other
writes are discarded. -/
def raiseFatal (code : FaultCode) (s : State) : State :=
  { s with fault := code, halted := true, busy := false, fatalO := true }

/-- The platform's reset (R150): every element of SD2-CLK's state to its value of R52. The
parameters and what stands outside SD2-CLK are not touched (assumption 6). It is the only way out
of a fault (R143). -/
def platformReset (s : State) : State := { State.resetWith s.params with env := s.env }

/-! ### Commands -/

/-- `reject(code)` (R140). -/
def reject (code : CmdError) (s : State) : State := { s with cerr := code }

/-- Command acceptance (R125): the first matching refusal, else `CERR` cleared and the command's
own pseudocode. `illegal` and `reinit` are the conditions of the third and the fourth line. -/
def acceptCommand (illegal reinit : Bool) (body : State → State) (s : State) : State :=
  if s.halted then reject .halted s
  else if s.busy then reject .busy s
  else if illegal then reject .illegal s
  else if reinit then reject .reinit s
  else body { s with cerr := .none }

/-- A word that decodes to no command: refused, with the order of R125. -/
def refuseIllegal (s : State) : State := acceptCommand true false id s

/-- A host write to a `CFG` register (R58). -/
def writeCfg (r : Reg) (v : Word) (s : State) : State :=
  if s.halted then reject .halted s
  else if s.busy then reject .busy s
  else if s.initDone then reject .locked s
  else storeReg r v s

/-- A host write to a `QRY` register (R58). -/
def writeQry (r : Reg) (v : Word) (s : State) : State :=
  if s.halted then reject .halted s
  else if s.busy then reject .busy s
  else storeReg r v s

end Sys2Proof.Machine
end

