-- ==== Sys2Proof/Machine/ClockTree.lean ====
section
/-! DEFINITION. The clock tree (42_clock_tree.md): U_USB_DIV, U_PBUS_DIV, U_CACHE, GET_RATE. -/

namespace Sys2Proof.Machine

/-- `U_USB_DIV` (R118). -/
def execUUsbDiv (s : State) : Result := .next (goto Ucode.pbusDiv (emit (.usbDiv s.usbDiv) s))

/-- `U_PBUS_DIV` (R119). -/
def execUPbusDiv (s : State) : Result :=
  .next (if s.curN.toNat + 1 < s.params.numPbus then
      goto Ucode.pbusDiv
        { emit (.pbusDiv s.curN (pbusDivOf s s.curN.toNat)) s with curN := s.curN + 1 }
    else goto Ucode.cache (emit (.pbusDiv s.curN (pbusDivOf s s.curN.toNat)) s))

/-- The frequency of `PeripheralBus[n]` (R111), floored (R120). -/
def pbusRate (s : State) (n : Nat) : Word :=
  rateWord (pllClk s).1 ((pllClk s).2 * s.pllResult.d.toNat * (pbusDivOf s n).toNat)

/-- The frequency of every clock domain, by domain index (R112, R120). -/
def domainRates (s : State) : List Word :=
  [BitVec.ofNat 32 (finOf s),
    rateWord (pllClk s).1 ((pllClk s).2 * s.pllResult.d.toNat),
    if s.usbEn then BitVec.ofNat 32 Config.usbRate else 0]
  ++ (List.range s.params.numPbus).map (pbusRate s)

/-- `U_CACHE` (R120). -/
def execUCache (s : State) : Result :=
  .next (goto Ucode.idle { s with rate := domainRates s, initDone := true, busy := false })

/-- `RATE[d]` (R45). The list has an entry for every domain; where it has none the value is 0
(assumption 19). -/
def rateOf (s : State) (d : Nat) : Word := s.rate.getD d 0

/-- `GET_RATE d` (R124); illegal for `d > 2 + NUM_PBUS` (R77). -/
def execGetRate (d : BitVec 8) (s : State) : Result :=
  .next (acceptCommand (!(Instr.getRate d).wellFormed s.params.numPbus) false
    (fun s => { s with rateOut := rateOf s d.toNat }) s)

end Sys2Proof.Machine
end

