-- ==== Sys2Proof/Machine/Synthesizer.lean ====
section
/-! DEFINITION. The PLL parameter synthesizer (40_synthesizer.md): `SEARCH`, `CHECKFIXED`, and the
instructions SYNTH, U_QUERY_SYNTH and CHECK_FIXED. -/

namespace Sys2Proof.Machine

/-- `lo` to `hi`, ascending. -/
def ascending (lo hi : Nat) : List Nat := List.range' lo (hi + 1 - lo)

/-- `hi` down to `lo`, descending. -/
def descending (lo hi : Nat) : List Nat := (ascending lo hi).reverse

/-- `Fcco = num / n` lies in `[FCCO_MIN, FCCO_MAX]`, evaluated exactly (R83, R88). -/
def fccoInRange (p : Params) (num n : Nat) : Bool :=
  decide (p.fccoMin * n ≤ num) && decide (num ≤ p.fccoMax * n)

/-- The innermost loop of `SEARCH`: the first `D` with `num = fout * D * n` (R83). -/
def searchDivider (num fout n : Nat) : Option Nat :=
  (ascending Config.dMin Config.dMax).find? (fun d => num == fout * d * n)

/-- The body of `SEARCH` for one `(N, M)` (R83). -/
def searchPair (p : Params) (fin fout n m : Nat) : Option PllChoice :=
  if fccoInRange p (2 * fin * m) n then
    (searchDivider (2 * fin * m) fout n).map (fun d => ⟨m, n, d⟩)
  else none

/-- `SEARCH(fin, fout)` (R83): `N` ascending, `M` descending, `D` ascending, the first success;
`none` is `Unsat`. Exact over the naturals (R84). -/
def search (p : Params) (fin fout : Nat) : Option PllChoice :=
  (ascending p.nMin p.nMax).findSome? (fun n =>
    (descending p.mMin p.mMax).findSome? (fun m => searchPair p fin fout n m))

/-- `CHECKFIXED(fin, M, N)` (R88). -/
def checkFixedPair (p : Params) (fin m n : Nat) : CheckResult :=
  if ¬ (p.mMin ≤ m ∧ m ≤ p.mMax ∧ p.nMin ≤ n ∧ n ≤ p.nMax) then .mnRange
  else if fccoInRange p (2 * fin * m) n then .ok
  else .fccoRange

/-- The three result writes of a query that succeeds with `c` (R90, R91). -/
def querySuccess (c : PllChoice) (s : State) : State :=
  { s with
    synResult := choiceTriple c
    synFcco := BitVec.ofNat 32 (2 * s.synFin.toNat * c.m / c.n)
    synOk := true }

/-- The three result writes of a query that fails (R90, R91). -/
def queryFailure (s : State) : State :=
  { s with synResult := ⟨0, 0, 0⟩, synFcco := 0, synOk := false }

/-- `SYNTH` (R89). -/
def execSynth (s : State) : Result :=
  .next (acceptCommand false false (fun s => goto Ucode.querySynth { s with busy := true }) s)

/-- The result writes of `U_QUERY_SYNTH` (R90). -/
def querySearch (s : State) : State :=
  match search s.params s.synFin.toNat s.synFout.toNat with
  | some c => querySuccess c s
  | none => queryFailure s

/-- `U_QUERY_SYNTH` (R90). -/
def execUQuerySynth (s : State) : Result :=
  .next (goto Ucode.idle { querySearch s with busy := false })

/-- The result writes of `CHECK_FIXED` (R91): the `D` field of the result is 0. -/
def queryFixed (s : State) : State :=
  match checkFixedPair s.params s.synFin.toNat s.synMN.m.toNat s.synMN.n.toNat with
  | .ok => querySuccess ⟨s.synMN.m.toNat, s.synMN.n.toNat, 0⟩ s
  | .mnRange => queryFailure s
  | .fccoRange => queryFailure s

/-- `CHECK_FIXED` (R91). -/
def execCheckFixed (s : State) : Result := .next (acceptCommand false false queryFixed s)

end Sys2Proof.Machine
end

