-- ==== Sys2Proof/Machine/Control.lean ====
section
/-! DEFINITION. The controller (43_control.md): NOP, INIT, U_IDLE, U_VALIDATE, U_OSC_EN, U_OSC_POLL,
U_DERIVE. -/

namespace Sys2Proof.Machine

/-- `NOP` (R126). -/
def execNop (s : State) : Result := .next (acceptCommand false false id s)

/-- `INIT` (R127), refused with `REINIT` when `INIT_DONE = 1` (R125). -/
def execInit (s : State) : Result :=
  .next (acceptCommand false s.initDone (fun s => goto Ucode.validate { s with busy := true }) s)

/-- `U_IDLE` (R128): the block takes no step; nothing changes (assumption 8). -/
def execUIdle (s : State) : Result := .next s

/-- The fault of the `CHECKFIXED` line of `U_VALIDATE`, in `FIXED` mode (R131). -/
def fixedFault (s : State) : Option FaultCode :=
  if s.pllMode = modeFixed then
    match checkFixedPair s.params (finOf s) s.fixedMN.m.toNat s.fixedMN.n.toNat with
    | .ok => none
    | .mnRange => some .mnRange
    | .fccoRange => some .fccoRange
  else none

/-- The first failing check of `U_VALIDATE`, in the order written (R131, R142). -/
def validateFault (s : State) : Option FaultCode :=
  if s.pllMode = modeReserved then some .badMode
  else if ¬ (inUse s).all (oscInRange s) then some .inputRange
  else if ¬ cpuDivLegal s.pllMode s.cpuDiv.toNat then some .invalidDivider
  else if ¬ usbDivLegal s.params s.usbEn s.usbDiv.toNat then some .invalidDivider
  else if ¬ pbusAllLegal s then some .invalidDivider
  else fixedFault s

/-- `U_VALIDATE` (R131). -/
def execUValidate (s : State) : Result :=
  .next (match validateFault s with
    | some code => raiseFatal code s
    | none => goto Ucode.oscEn { s with curK := minInUse s })

/-- `U_OSC_EN` (R132). -/
def execUOscEn (s : State) : Result :=
  .next (goto Ucode.oscPoll
    (emit (.oscEn s.curK) { s with oscEnabled := setBit4 s.oscEnabled s.curK }))

/-- The writes of `U_OSC_POLL` once oscillator `h.cur_k` is stable (R133). -/
def oscStableNow (s : State) : State :=
  match nextOsc s s.curK with
  | some k => goto Ucode.oscEn { s with oscStable := setBit4 s.oscStable s.curK, curK := k }
  | none => goto Ucode.derive { s with oscStable := setBit4 s.oscStable s.curK }

/-- `U_OSC_POLL` (R133). -/
def execUOscPoll (s : State) : Result :=
  .next (if ready s (oscStatAnswer s) then oscStableNow (afterOscStat s.curK s)
    else goto Ucode.oscPoll (afterOscStat s.curK s))

/-- The `(M, N, D)` of the mode; `none` is `Unsat` (R134). Not asked in the reserved mode. -/
def chosenTriple (s : State) : Option PllChoice :=
  if s.pllMode = modeSynth then search s.params (finOf s) s.desiredFreq.toNat
  else if s.pllMode = modeFixed then
    some ⟨s.fixedMN.m.toNat, s.fixedMN.n.toNat, s.cpuDiv.toNat⟩
  else some ⟨0, 0, s.cpuDiv.toNat⟩

/-- The first failing rate limit of `U_DERIVE` for the choice `c` (R116, R134). -/
def rateFault (s : State) (c : PllChoice) : Option FaultCode :=
  let clk := pllClock s.pllMode (finOf s) c.m c.n
  if clk.1 > s.params.maxCpuRate * clk.2 * c.d then some .cpuRate
  else if s.usbEn ∧ clk.1 ≠ Config.usbRate * clk.2 * s.usbDiv.toNat then some .usbRate
  else none

/-- `U_DERIVE` in one of the three modes (R134). -/
def deriveStep (s : State) : State :=
  match chosenTriple s with
  | none => raiseFatal .unsatisfiable s
  | some c =>
    match rateFault s c with
    | some code => raiseFatal code s
    | none => goto Ucode.pstatSample { s with pllResult := choiceTriple c }

/-- `U_DERIVE` (R134). Its case distinction has no line for the reserved mode 3, which `U_VALIDATE`
faults on: the model refuses it there (assumption 13). -/
def execUDerive (s : State) : Result :=
  if s.pllMode = modeReserved then .refused .reservedMode else .next (deriveStep s)

end Sys2Proof.Machine
end

