-- ==== Sys2Proof/Machine/Sequencer.lean ====
section
/-! DEFINITION. The PLL lock-and-feed sequencer (41_sequencer.md). -/

namespace Sys2Proof.Machine

/-- `U_PSTAT_SAMPLE` (R97). -/
def execUPstatSample (s : State) : Result :=
  .next (goto
    (if (pstatAnswer s).conn then Ucode.disconnect
      else if (pstatAnswer s).en then Ucode.disable
      else Ucode.srcSel)
    (afterPstat { s with en0 := (pstatAnswer s).en, conn0 := (pstatAnswer s).conn }))

/-- `U_DISCONNECT` (R98). -/
def execUDisconnect (s : State) : Result :=
  .next (enterFeed (if s.en0 then Ucode.disable else Ucode.srcSel) (emit (.pcon s.en0 false) s))

/-- `U_DISABLE` (R99). -/
def execUDisable (s : State) : Result :=
  .next (enterFeed Ucode.srcSel (emit (.pcon false false) s))

/-- `U_SRC_SEL` (R100). -/
def execUSrcSel (s : State) : Result :=
  .next (goto Ucode.cpuDiv (emit (.clkSrc s.clkSrc) { s with seqState := .disabled }))

/-- `U_CPU_DIV` (R101). -/
def execUCpuDiv (s : State) : Result :=
  .next (if s.pllMode = modeBypass then enterDividers (emit (.cpuDiv s.pllResult.d) s)
    else goto Ucode.cfg (emit (.cpuDiv s.pllResult.d) s))

/-- `U_CFG` (R102). -/
def execUCfg (s : State) : Result :=
  .next (enterFeed Ucode.enable (emit (.pcfg s.pllResult.m s.pllResult.n) s))

/-- `U_ENABLE` (R103). -/
def execUEnable (s : State) : Result :=
  .next (enterFeed Ucode.lockPoll (emit (.pcon true false) s))

/-- `U_LOCK_POLL` (R104). -/
def execULockPoll (s : State) : Result :=
  .next (if ready s (pstatAnswer s).lock then
      goto Ucode.connect { afterPstat s with seqState := .locked }
    else goto Ucode.lockPoll (afterPstat s))

/-- `U_CONNECT` (R105). -/
def execUConnect (s : State) : Result :=
  .next (enterFeed Ucode.connPoll (emit (.pcon true true) s))

/-- `U_CONN_POLL` (R106). -/
def execUConnPoll (s : State) : Result :=
  .next (if ready s (pstatAnswer s).conn then
      enterDividers { afterPstat s with seqState := .connected }
    else goto Ucode.connPoll (afterPstat s))

/-- `U_FEED_AA` (R107). -/
def execUFeedAa (s : State) : Result := .next (goto Ucode.feed55 (emit (.feed 0xAA) s))

/-- `U_FEED_55` (R108). -/
def execUFeed55 (s : State) : Result :=
  .next (goto s.feedRet (emit (.feed 0x55)
    (if s.feedRet = Ucode.lockPoll then { s with seqState := .enabling } else s)))

end Sys2Proof.Machine
end

