-- ==== Sys2Proof/Machine/Dispatch.lean ====
section
/-! DEFINITION. One arm per instruction: the meaning it calls. -/

namespace Sys2Proof.Machine

def exec (i : Instr) (s : State) : Host.Outcome State Fault Refusal :=
  match i with
  | .nop => Sys2Proof.Machine.execNop s
  | .init => Sys2Proof.Machine.execInit s
  | .synth => Sys2Proof.Machine.execSynth s
  | .checkFixed => Sys2Proof.Machine.execCheckFixed s
  | .getRate d => Sys2Proof.Machine.execGetRate d s
  | .uIdle => Sys2Proof.Machine.execUIdle s
  | .uValidate => Sys2Proof.Machine.execUValidate s
  | .uOscEn => Sys2Proof.Machine.execUOscEn s
  | .uOscPoll => Sys2Proof.Machine.execUOscPoll s
  | .uDerive => Sys2Proof.Machine.execUDerive s
  | .uPstatSample => Sys2Proof.Machine.execUPstatSample s
  | .uDisconnect => Sys2Proof.Machine.execUDisconnect s
  | .uDisable => Sys2Proof.Machine.execUDisable s
  | .uSrcSel => Sys2Proof.Machine.execUSrcSel s
  | .uCpuDiv => Sys2Proof.Machine.execUCpuDiv s
  | .uCfg => Sys2Proof.Machine.execUCfg s
  | .uEnable => Sys2Proof.Machine.execUEnable s
  | .uLockPoll => Sys2Proof.Machine.execULockPoll s
  | .uConnect => Sys2Proof.Machine.execUConnect s
  | .uConnPoll => Sys2Proof.Machine.execUConnPoll s
  | .uFeedAa => Sys2Proof.Machine.execUFeedAa s
  | .uFeed55 => Sys2Proof.Machine.execUFeed55 s
  | .uUsbDiv => Sys2Proof.Machine.execUUsbDiv s
  | .uPbusDiv => Sys2Proof.Machine.execUPbusDiv s
  | .uCache => Sys2Proof.Machine.execUCache s
  | .uQuerySynth => Sys2Proof.Machine.execUQuerySynth s

end Sys2Proof.Machine
end

