-- ==== Sys2Proof/Machine/HostBus.lean ====
section
/-! DEFINITION. The turns: a host access to the register window (R56 to R59, R125), a micro-step of
the block (R128), the platform's reset (R150), and whose turn it is (R15). `run` is what runs a
decoded instruction; Step.lean passes `exec`. -/

namespace Sys2Proof.Machine

/-- A host write of `v` to `CMD`: the command it decodes to, else a refusal (R125). A command word
is not stored (R69). -/
def hostCommand (run : Instr → State → Result) (v : Word) (s : State) : Result :=
  match decodeCmd v with
  | .ok i => run i s
  | .error _ => .next (refuseIllegal s)

/-- `MemWrite(BLOCK_BASE + off, 4, v)` (R58). -/
def windowWrite (run : Instr → State → Result) (off : Nat) (v : Word) (s : State) : Result :=
  match regAt s.params.numPbus off with
  | none => .next s
  | some r =>
    match regClass r with
    | .wo => hostCommand run v s
    | .cfg => .next (writeCfg r v s)
    | .qry => .next (writeQry r v s)
    | .ro => .next s

/-- `MemRead(BLOCK_BASE + off, 4)` (R57): the host is given the value, and nothing else changes. -/
def windowReadStep (off : Nat) (s : State) : State :=
  { s with env := { s.env with readLog := s.env.readLog ++ [windowRead s off] } }

/-- The access touches a byte of the register window. -/
def touchesWindow (s : State) (addr size : Nat) : Bool :=
  decide (addr < s.params.blockBase + 256) && decide (s.params.blockBase < addr + size)

/-- The access is admitted (R56): 4 bytes, at `BLOCK_BASE + off` with `off` a multiple of 4 and at
most 0xFC. -/
def admitted (s : State) (addr size : Nat) : Bool :=
  size == 4 && decide (s.params.blockBase ≤ addr)
  && (addr - s.params.blockBase) % 4 == 0 && decide (addr - s.params.blockBase ≤ 0xFC)

/-- What an access that is not admitted meets: a bus error inside the window (R56); outside it
SD2-CLK is no target (R53, assumption 9). -/
def notAdmitted (addr size : Nat) (s : State) : Result :=
  if touchesWindow s addr size then .refused (.busError addr size) else .fault (.outsideWindow addr)

/-- One host access. -/
def hostAccess (run : Instr → State → Result) (a : HostAccess) (s : State) : Result :=
  match a with
  | .read addr size =>
    if admitted s addr size then .next (windowReadStep (addr - s.params.blockBase) s)
    else notAdmitted addr size s
  | .write addr size v =>
    if admitted s addr size then windowWrite run (addr - s.params.blockBase) v s
    else notAdmitted addr size s

/-- The state with the host's oldest waiting access taken from the queue. -/
def popHost (s : State) : State := { s with env := { s.env with hostQueue := s.env.hostQueue.tail } }

/-- The host's turn: its next access in program order (R66); nothing when it has none. -/
def hostTurn (run : Instr → State → Result) (s : State) : Result :=
  match s.env.hostQueue with
  | [] => .next s
  | a :: _ => hostAccess run a (popHost s)

/-- The block's turn: one micro-step exactly when `BUSY = 1` (R128), else nothing. -/
def blockTurn (run : Instr → State → Result) (s : State) : Result :=
  if s.busy then
    match decodeUstep s.ustep with
    | .ok i => run i s
    | .error _ => .refused (.noSuchMicroStep s.ustep)
  else .next s

/-- Whose turn it is: the next listed one, else a free value (R15, assumption 3). -/
def nextTurn (s : State) : Turn :=
  match s.env.schedule with
  | t :: _ => t
  | [] => Config.freeTurn s.env.turns

/-- The state with that turn taken from the schedule. -/
def popTurn (s : State) : State :=
  match s.env.schedule with
  | _ :: rest => { s with env := { s.env with schedule := rest } }
  | [] => { s with env := { s.env with turns := s.env.turns + 1 } }

/-- The state whose next step runs the encoded instruction `c` (assumption 7): a command is the host's
next access and the turn is the host's; a micro-step is `ustep` of a busy block and the turn is the
block's. -/
def fetchState (s : State) (c : Option CodeWord) : State :=
  match c with
  | none => s
  | some (.cmd32 w) =>
    { s with env := { s.env with
        schedule := .host :: s.env.schedule
        hostQueue := .write s.params.blockBase 4 w :: s.env.hostQueue } }
  | some (.ustep6 u) =>
    { s with ustep := u, busy := true, env := { s.env with schedule := .block :: s.env.schedule } }

/-- One step of the machine. Parameters that break R7 have no meaning (R8). -/
def stepWith (run : Instr → State → Result) (s : State) : Result :=
  if s.params.ok then
    match nextTurn s with
    | .host => hostTurn run (popTurn s)
    | .block => blockTurn run (popTurn s)
    | .reset => .next (platformReset (popTurn s))
  else .refused .notAConfiguration

end Sys2Proof.Machine
end

