-- ==== Sys2Proof/Machine/Step.lean ====
section
/-! DEFINITION. One step of the machine, and how an instruction is put where the step fetches it. -/

namespace Sys2Proof.Machine

/-- One step: the turn of the host, the block or the reset input (R15). -/
def step (s : State) : Host.Outcome State Fault Refusal := stepWith exec s

/-- The state whose next step runs the instruction with these bits: a command word as the host's
next access, a write to `CMD` (R125); a micro-step code in `ustep` of a busy block (R128). -/
def State.withFetchWord (s : State) (nbits w : Nat) : State := fetchState s (tableCodeWord nbits w)

end Sys2Proof.Machine
end

