-- ==== Sys2Proof/Safety.lean ====
section
/-! DEFINITION. What the claims say of a state: the control invariant, the feed rule, legal
configurations and results, the cache's agreement, the sequencer's states, and the port traces of
whole phases. -/

namespace Sys2Proof.Safety

open Sys2Proof.Machine

/-! ### Runs -/

/-- `k` steps, stopping at the first fault or refusal. -/
def runFor : Nat → State → Result
  | 0, s => .next s
  | k + 1, s =>
    match step s with
    | .next t => runFor k t
    | .fault f => .fault f
    | .refused r => .refused r

/-- A run: each state is followed by the state its step answers. -/
def IsRun (r : Nat → State) : Prop := ∀ n, step (r n) = .next (r (n + 1))

/-- Weak fairness of the block (R15): if from some point on it can always step, which is when
`BUSY = 1` (R128), then it takes a turn. Nothing is assumed of the host, of the reset input or of the
environment's answers. -/
def WeaklyFair (r : Nat → State) : Prop :=
  ∀ n, (∀ m, n ≤ m → (r m).busy = true) → ∃ m, n ≤ m ∧ nextTurn (r m) = .block

/-- The runs of R15: every step is the machine's, in any interleaving that is fair to the block. -/
structure FairRun (r : Nat → State) : Prop where
  run : IsRun r
  fair : WeaklyFair r

/-- The next turn is not the platform's reset. -/
abbrev NotReset (s : State) : Prop := nextTurn s ≠ .reset

/-! ### The controller (R44, R79, R98, R99, R108, R118, R119, R128, R137, R138) -/

/-- `ustep` is one of the two feed micro-steps. -/
abbrev InFeed (s : State) : Prop := s.ustep = Ucode.feedAa ∨ s.ustep = Ucode.feed55

/-- The successors a feed may return to (R108). -/
def feedReturns : List (BitVec 6) :=
  [Ucode.disable, Ucode.srcSel, Ucode.enable, Ucode.lockPoll, Ucode.connPoll]

/-- What holds of the controller in every state a run from reset reaches. -/
structure ControlInv (s : State) : Prop where
  /-- The parameters are a configuration (R8). -/
  paramsOk : s.params.ok = true
  /-- One divider for every bus (R42). -/
  pbusLength : s.pbusDiv.length = s.params.numPbus
  /-- One cached rate for every domain (R45, R112). -/
  rateLength : s.rate.length = 3 + s.params.numPbus
  /-- The codes `0x15..0x3F` are never held (R79). -/
  codeHeld : s.ustep.toNat ≤ 0x14
  /-- `BUSY = 1` implies `HALTED = 0` and `ustep != U_IDLE` (R128). -/
  busyRuns : s.busy = true → s.halted = false ∧ s.ustep ≠ Ucode.idle
  /-- `BUSY = 0` and `HALTED = 0` imply `ustep = U_IDLE` (R128). -/
  restIdle : s.busy = false → s.halted = false → s.ustep = Ucode.idle
  /-- A halted block is frozen at the micro-step that faulted (R136, R137). -/
  haltedAt : s.halted = true → s.ustep = Ucode.validate ∨ s.ustep = Ucode.derive
  /-- `FAULT` is `NONE` exactly while `HALTED = 0` (R28, R137). -/
  faultHalted : s.fault = .none ↔ s.halted = false
  /-- `fatal_o` is 1 exactly when `HALTED = 1` (R138). -/
  fatalLevel : s.fatalO = s.halted
  /-- A block that has completed `INIT` never halts (R125, R136). -/
  doneNotHalted : s.initDone = true → s.halted = false
  /-- `INIT` runs once: no micro-step of it is taken after it has completed (R121, R125). -/
  initOnce : s.busy = true → s.ustep ≠ Ucode.querySynth → s.initDone = false
  /-- `h.feed_ret` while a feed is written (R108). -/
  feedReturn : InFeed s → s.feedRet ∈ feedReturns
  /-- `U_DISABLE` is reached only when `h.en0 = 1` (R99). -/
  disableEnabled : s.ustep = Ucode.disable → s.en0 = true
  /-- So is the feed that returns to it (R98). -/
  disableNext : InFeed s → s.feedRet = Ucode.disable → s.en0 = true
  /-- `U_USB_DIV` is reached only when `USB_EN = 1` (R118). -/
  usbUsed : s.ustep = Ucode.usbDiv → s.usbEn = true
  /-- The bus index stays inside the buses (R119). -/
  busIndex : s.ustep = Ucode.usbDiv ∨ s.ustep = Ucode.pbusDiv → s.curN.toNat < s.params.numPbus

/-! ### The feed rule (R93) -/

/-- A change: a write `PW_PCON(...)` or `PW_PCFG(...)` (R93). -/
def IsChange (e : PortEvent) : Prop := (∃ en conn, e = .pcon en conn) ∨ (∃ m n, e = .pcfg m n)

/-- The feed rule of a port trace (R93): every change is followed at once by its two feeds, and
every feed is at such a place. -/
structure FeedRule (t : List PortEvent) : Prop where
  fed : ∀ i e, t[i]? = some e → IsChange e →
    t[i + 1]? = some (.feed 0xAA) ∧ t[i + 2]? = some (.feed 0x55)
  feeds : ∀ i b, t[i]? = some (.feed b) →
    (∃ j e, i = j + 1 ∧ b = 0xAA ∧ t[j]? = some e ∧ IsChange e) ∨
    (∃ j e, i = j + 2 ∧ b = 0x55 ∧ t[j]? = some e ∧ IsChange e)

/-- The feeds still to be written when the block stands at a micro-step (R107, R108). -/
def pendingFeed (u : BitVec 6) : List PortEvent :=
  if u = Ucode.feedAa then [.feed 0xAA, .feed 0x55]
  else if u = Ucode.feed55 then [.feed 0x55]
  else []

/-- The port trace, completed by the feeds still to be written, obeys the feed rule. -/
def FeedInv (s : State) : Prop := FeedRule (s.trace ++ pendingFeed s.ustep)

/-! ### Legal configurations and results (R113 to R116, R130, R131, R134) -/

/-- Oscillator `k` is in use (R130). -/
abbrev InUse (s : State) (k : BitVec 2) : Prop := s.oscEn.getLsbD k.toNat = true ∨ k = s.clkSrc

/-- A pair `(M, N)` inside its ranges whose `Fcco` lies in range (R49, R88). -/
abbrev PairLegal (p : Params) (fin m n : Nat) : Prop :=
  (p.mMin ≤ m ∧ m ≤ p.mMax ∧ p.nMin ≤ n ∧ n ≤ p.nMax) ∧
  (p.fccoMin * n ≤ 2 * fin * m ∧ 2 * fin * m ≤ p.fccoMax * n)

/-- A legal divider of bus `n` (R115). -/
abbrev BusDivLegal (p : Params) (n d : Nat) : Prop :=
  d = 1 ∨ d = 2 ∨ d = 4 ∨ d = 8 ∨ (d = 6 ∧ p.can6Supported = true ∧ n ∈ p.canBuses)

/-- The frequency of oscillator `k` is inside its bounds (R131). -/
abbrev OscLegal (s : State) (k : BitVec 2) : Prop :=
  (s.params.oscMin[k.toNat]'(k.isLt)) ≤ oscFreqOf s k ∧
  oscFreqOf s k ≤ (s.params.oscMax[k.toNat]'(k.isLt))

/-- A CPU divider legal in the mode (R113). -/
abbrev CpuDivLegal (s : State) : Prop :=
  (s.pllMode = modeBypass → 1 ≤ s.cpuDiv.toNat) ∧ (s.pllMode = modeFixed → 2 ≤ s.cpuDiv.toNat)

/-- A USB divider legal when the domain is in use (R114). -/
abbrev UsbDivLegal (s : State) : Prop := s.usbEn = true → s.usbDiv.toNat ∈ s.params.usbDivSet

/-- Every bus has a legal divider (R115). -/
abbrev BusDivsLegal (s : State) : Prop :=
  ∀ n, n < s.params.numPbus → BusDivLegal s.params n (pbusDivOf s n).toNat

/-- A configuration `U_VALIDATE` passes (R131). -/
structure ConfigLegal (s : State) : Prop where
  mode : s.pllMode ≠ modeReserved
  osc : ∀ k, InUse s k → OscLegal s k
  cpu : CpuDivLegal s
  usb : UsbDivLegal s
  pbus : BusDivsLegal s
  pair : s.pllMode = modeFixed →
    PairLegal s.params (finOf s) s.fixedMN.m.toNat s.fixedMN.n.toNat

/-- The choice `c` is the one `U_DERIVE` makes in the mode (R32, R134). -/
abbrev Chosen (s : State) (c : PllChoice) : Prop :=
  (s.pllMode = modeBypass ∧ c = ⟨0, 0, s.cpuDiv.toNat⟩) ∨
  (s.pllMode = modeSynth ∧ search s.params (finOf s) s.desiredFreq.toNat = some c) ∨
  (s.pllMode = modeFixed ∧ c = ⟨s.fixedMN.m.toNat, s.fixedMN.n.toNat, s.cpuDiv.toNat⟩)

/-- The PLL clock of a choice as an exact fraction (R111): numerator. -/
def clockNum (s : State) (c : PllChoice) : Nat :=
  if s.pllMode = modeBypass then finOf s else 2 * finOf s * c.m

/-- The PLL clock of a choice as an exact fraction (R111): denominator. -/
def clockDen (s : State) (c : PllChoice) : Nat := if s.pllMode = modeBypass then 1 else c.n

/-- The CPU clock of the choice is at most `MAX_CPU_RATE` (R116). -/
abbrev CpuRateLegal (s : State) (c : PllChoice) : Prop :=
  clockNum s c ≤ s.params.maxCpuRate * clockDen s c * c.d

/-- The USB clock of the choice is exactly 48 MHz when in use (R116). -/
abbrev UsbRateLegal (s : State) (c : PllChoice) : Prop :=
  s.usbEn = true → clockNum s c = Config.usbRate * clockDen s c * s.usbDiv.toNat

/-- `PLL_RESULT` as naturals. -/
def resultChoice (s : State) : PllChoice :=
  ⟨s.pllResult.m.toNat, s.pllResult.n.toNat, s.pllResult.d.toNat⟩

/-- `PLL_RESULT` holds what `U_DERIVE` writes there (R32, R116, R134). -/
structure DerivedLegal (s : State) : Prop where
  chosen : Chosen s (resultChoice s)
  cpuRate : CpuRateLegal s (resultChoice s)
  usbRate : UsbRateLegal s (resultChoice s)

/-- The rate cache holds, for every domain, the floor of the exact frequency that R111 gives from
the configuration registers and `PLL_RESULT` (R111, R120, R122). -/
structure CacheAgrees (s : State) : Prop where
  system : (rateOf s 0).toNat = finOf s
  cpu : (rateOf s 1).toNat =
    clockNum s (resultChoice s) / (clockDen s (resultChoice s) * s.pllResult.d.toNat)
  usb : (rateOf s 2).toNat = if s.usbEn = true then 48000000 else 0
  pbus : ∀ n, n < s.params.numPbus → (rateOf s (3 + n)).toNat =
    clockNum s (resultChoice s) /
      (clockDen s (resultChoice s) * s.pllResult.d.toNat * (pbusDivOf s n).toNat)

/-- `INIT` is past `U_VALIDATE`. -/
abbrev PastValidate (s : State) : Prop :=
  s.busy = true ∧ Ucode.oscEn.toNat ≤ s.ustep.toNat ∧ s.ustep ≠ Ucode.querySynth

/-- `INIT` is past `U_DERIVE`. -/
abbrev PastDerive (s : State) : Prop :=
  s.busy = true ∧ Ucode.pstatSample.toNat ≤ s.ustep.toNat ∧ s.ustep ≠ Ucode.querySynth

/-- What the registers and the cache hold in each phase of `INIT` and after it. -/
structure DataInv (s : State) : Prop where
  validated : PastValidate s → ConfigLegal s
  derived : PastDerive s → DerivedLegal s
  cached : s.initDone = true → ConfigLegal s ∧ DerivedLegal s ∧ CacheAgrees s
  /-- Before `INIT` completes the cache holds the boot rates (R123). -/
  bootRates : s.initDone = false → s.rate = s.params.bootRate.map (BitVec.ofNat 32)
  /-- Until `U_DERIVE` passes, `PLL_RESULT` keeps its reset value 0 (R134). -/
  noResult : s.initDone = false → ¬ PastDerive s → s.pllResult = ⟨0, 0, 0⟩

/-- Every pair written to the plant is `PLL_RESULT`'s, in a legal configuration (R49, R102). -/
structure PairInv (s : State) : Prop where
  /-- `U_CFG` is not taken in `BYPASS` mode (R101). -/
  atCfg : s.busy = true → s.ustep = Ucode.cfg → s.pllMode ≠ modeBypass
  pairs : ∀ m n, .pcfg m n ∈ s.trace → m = s.pllResult.m ∧ n = s.pllResult.n
  written : ∀ m n, .pcfg m n ∈ s.trace →
    s.pllMode ≠ modeBypass ∧
      (s.initDone = true ∨
        (s.busy = true ∧ Ucode.enable.toNat ≤ s.ustep.toNat ∧ s.ustep ≠ Ucode.querySynth ∧
          (InFeed s → Ucode.enable.toNat ≤ s.feedRet.toNat)))

/-! ### The sequencer's state (R29, R110) -/

/-- What `SEQ_STATE` is when the PLL phase has ended: `CONNECTED` in the PLL modes, `DISABLED` in
`BYPASS` mode (R95, R106). -/
def finalSeq (s : State) : SeqState := if s.pllMode = modeBypass then .disabled else .connected

/-- What `SEQ_STATE` is at a micro-step of a running `INIT`. -/
def seqAt (s : State) : SeqState :=
  if s.ustep = Ucode.lockPoll then .enabling
  else if s.ustep = Ucode.connect ∨ s.ustep = Ucode.connPoll then .locked
  else if InFeed s ∧ s.feedRet = Ucode.connPoll then .locked
  else if s.ustep = Ucode.usbDiv ∨ s.ustep = Ucode.pbusDiv ∨ s.ustep = Ucode.cache then finalSeq s
  else .disabled

/-- What `SEQ_STATE` is in every state a run from reset reaches. -/
structure SeqInv (s : State) : Prop where
  done : s.initDone = true → s.seqState = finalSeq s
  running : s.busy = true → s.ustep ≠ Ucode.querySynth → s.seqState = seqAt s
  before : s.initDone = false → (s.busy = false ∨ s.ustep = Ucode.querySynth) →
    s.seqState = .disabled
  /-- The PLL micro-steps after `U_CPU_DIV` are not taken in `BYPASS` mode (R101). -/
  pllModes : s.busy = true →
    (s.ustep = Ucode.cfg ∨ s.ustep = Ucode.enable ∨ s.ustep = Ucode.lockPoll ∨
      s.ustep = Ucode.connect ∨ s.ustep = Ucode.connPoll ∨
      (InFeed s ∧ s.feedRet ≠ Ucode.disable ∧ s.feedRet ≠ Ucode.srcSel)) →
    s.pllMode ≠ modeBypass

/-! ### The register window (R26, R27) -/

/-- A register that the window has: a bus divider only below `NUM_PBUS` (R26). -/
def RegExists (p : Params) (r : Reg) : Prop := ∀ n, r = .pbusDiv n → n < p.numPbus

/-- The bits of a register that are not reserved (R26, R28). `CMD` holds none. -/
def regMask : Reg → Word
  | .cmd => 0
  | .status => 0x03FFFF7F
  | .rateOut => 0xFFFFFFFF
  | .pllResult => 0xFFFFFFFF
  | .oscFreq _ => 0xFFFFFFFF
  | .oscEn => 0x0000000F
  | .clkSrc => 0x00000003
  | .pllMode => 0x00000003
  | .desiredFreq => 0xFFFFFFFF
  | .fixedMN => 0x00FFFFFF
  | .cpuDiv => 0x000000FF
  | .usbCfg => 0x0000FF01
  | .oscStatus => 0x000000FF
  | .pbusDiv _ => 0x000000FF
  | .synFin => 0xFFFFFFFF
  | .synFout => 0xFFFFFFFF
  | .synMNIn => 0x00FFFFFF
  | .synResult => 0xFFFFFFFF
  | .synFcco => 0xFFFFFFFF

/-- The table of R26: each register with its offset and its access class. The bus dividers, whose
number is a parameter, stand apart. -/
def registerTable : List (Reg × Nat × AccessClass) :=
  [(.cmd, 0x000, .wo), (.status, 0x004, .ro), (.rateOut, 0x008, .ro), (.pllResult, 0x00C, .ro),
    (.oscFreq 0, 0x010, .cfg), (.oscFreq 1, 0x014, .cfg), (.oscFreq 2, 0x018, .cfg),
    (.oscFreq 3, 0x01C, .cfg), (.oscEn, 0x020, .cfg), (.clkSrc, 0x024, .cfg),
    (.pllMode, 0x028, .cfg), (.desiredFreq, 0x02C, .cfg), (.fixedMN, 0x030, .cfg),
    (.cpuDiv, 0x034, .cfg), (.usbCfg, 0x038, .cfg), (.oscStatus, 0x03C, .ro),
    (.synFin, 0x080, .qry), (.synFout, 0x084, .qry), (.synMNIn, 0x088, .qry),
    (.synResult, 0x08C, .ro), (.synFcco, 0x090, .ro)]

/-- Two states agree in every `CFG` register (R26). -/
structure SameConfig (s t : State) : Prop where
  oscFreq : t.oscFreq = s.oscFreq
  oscEn : t.oscEn = s.oscEn
  clkSrc : t.clkSrc = s.clkSrc
  pllMode : t.pllMode = s.pllMode
  desiredFreq : t.desiredFreq = s.desiredFreq
  fixedMN : t.fixedMN = s.fixedMN
  cpuDiv : t.cpuDiv = s.cpuDiv
  usbEn : t.usbEn = s.usbEn
  usbDiv : t.usbDiv = s.usbDiv
  pbusDiv : t.pbusDiv = s.pbusDiv

/-- The host's next access is of this address and size. -/
def HostAccessIs (s : State) (addr size : Nat) : Prop :=
  s.env.hostQueue.head? = some (.read addr size) ∨
    ∃ v, s.env.hostQueue.head? = some (.write addr size v)

/-- The host's next access is a write of the command word `w`. -/
def HostCommandIs (s : State) (w : Word) : Prop :=
  nextTurn s = .host ∧ s.env.hostQueue.head? = some (.write s.params.blockBase 4 w)

/-! ### The search (R82, R83, R85) -/

/-- `(M, N, D)` satisfies the source's contract for `(fin, fout)` (R82, R85 item 1). -/
structure Match (p : Params) (fin fout : Nat) (c : PllChoice) : Prop where
  nRange : p.nMin ≤ c.n ∧ c.n ≤ p.nMax
  mRange : p.mMin ≤ c.m ∧ c.m ≤ p.mMax
  dRange : 2 ≤ c.d ∧ c.d ≤ 255
  fccoRange : p.fccoMin * c.n ≤ 2 * fin * c.m ∧ 2 * fin * c.m ≤ p.fccoMax * c.n
  exact : 2 * fin * c.m = fout * c.d * c.n

/-- `a` comes no later than `b` in the search order: smallest `N`, then largest `M`, then smallest
`D` (R85 item 2). -/
abbrev NoLater (a b : PllChoice) : Prop :=
  a.n < b.n ∨ (a.n = b.n ∧ (b.m < a.m ∨ (a.m = b.m ∧ a.d ≤ b.d)))

/-- The innermost loop by one division (R85 item 3). -/
def pairByDivision (p : Params) (fin fout n m : Nat) : Option PllChoice :=
  if p.fccoMin * n ≤ 2 * fin * m ∧ 2 * fin * m ≤ p.fccoMax * n ∧ 0 < fout ∧
      2 * fin * m % (fout * n) = 0 ∧ 2 ≤ 2 * fin * m / (fout * n) ∧
      2 * fin * m / (fout * n) ≤ 255 then
    some ⟨m, n, 2 * fin * m / (fout * n)⟩
  else none

/-- `SEARCH` with the innermost loop replaced (R85 item 3). -/
def searchByDivision (p : Params) (fin fout : Nat) : Option PllChoice :=
  (ascending p.nMin p.nMax).findSome? (fun n =>
    (descending p.mMin p.mMax).findSome? (fun m => pairByDivision p fin fout n m))

/-! ### Port traces of whole phases (R109, R135) -/

/-- `F` of R109: one feed. -/
def feedPair : List PortEvent := [.feed 0xAA, .feed 0x55]

/-- Steps (1) and (2), from the first status sample (R95, R109). -/
def disableTrace (a : PStat) : List PortEvent :=
  (if a.conn = true then .pcon a.en false :: feedPair else []) ++
  (if a.en = true then .pcon false false :: feedPair else [])

/-- The part of the PLL phase that every mode has (R109). -/
def commonPllTrace (s : State) (a : PStat) : List PortEvent :=
  .pstat a :: (disableTrace a ++ [.clkSrc s.clkSrc, .cpuDiv s.pllResult.d])

/-- The answers of one wait: the ones that do not end it, and the one that does. -/
structure Wait (α : Type) where
  before : List α
  last : α

/-- The answers of a wait in order. -/
def Wait.answers {α : Type} (w : Wait α) : List α := w.before ++ [w.last]

/-- The wait ends at its last answer and not before (R96): with `READY_BYPASS = true` at its first
read, whatever the answer. -/
def Wait.Ends {α : Type} (p : Params) (bit : α → Bool) (w : Wait α) : Prop :=
  if p.readyBypass = true then w.before = []
  else (∀ a, a ∈ w.before → bit a = false) ∧ bit w.last = true

/-- The part of the PLL phase that only the PLL modes have (R109). -/
def pllModesTrace (s : State) (lock conn : Wait PStat) : List PortEvent :=
  (.pcfg s.pllResult.m s.pllResult.n :: feedPair) ++ (.pcon true false :: feedPair) ++
  lock.answers.map .pstat ++ (.pcon true true :: feedPair) ++ conn.answers.map .pstat

/-- The writes of the `DIVIDERS` phase (R118, R119, R135). -/
def dividersTrace (s : State) : List PortEvent :=
  (if s.usbEn = true then [.usbDiv s.usbDiv] else []) ++
  (List.range s.params.numPbus).map (fun n => .pbusDiv (BitVec.ofNat 4 n) (pbusDivOf s n))

/-- The operations of the `OSC` phase for one oscillator (R135). -/
def oscTrace (k : BitVec 2) (w : Wait Bool) : List PortEvent :=
  .oscEn k :: w.answers.map (.oscStat k)

end Sys2Proof.Safety
end

