-- ==== Sys2Proof/Certificates/Slice0/Obligations.lean ====
section
/-! DEFINITION. The statements for the provers. -/

open Sys2Proof Sys2Proof.Machine Sys2Proof.Safety

/-! ### Encoding -/

/-- R76, R78: decoding and encoding are inverse, on every word of both formats. -/
def Obligations.DecodeEncodeInverse : Prop :=
  ∀ (c : CodeWord) (i : Instr), decode c = .ok i ↔ encode i = c

/-- R77: the four conditions that make a command word illegal, and that an illegal word written to an
idle block has no effect but `CERR = ILLEGAL`. -/
def Obligations.IllegalWordRefused : Prop :=
  (∀ (np : Nat) (v : Word), illegalWord np v = true ↔
    (v.toNat / 65536 ≠ 0 ∨ 5 ≤ v.toNat % 256 ∨
      (v.toNat % 256 ≠ 4 ∧ v.toNat / 256 % 256 ≠ 0) ∨
      (v.toNat % 256 = 4 ∧ 2 + np < v.toNat / 256 % 256))) ∧
  (∀ (s : State) (v : Word), s.halted = false → s.busy = false →
    illegalWord s.params.numPbus v = true →
    windowWrite exec 0x000 v s = .next { s with cerr := .illegal })

/-- R76, R78, R79: a few words written out from the tables, one or more of each family, and the codes
that are no micro-step. -/
def Obligations.WrittenWordsDecode : Prop :=
  decode (.cmd32 0x00000000) = .ok .nop ∧
  decode (.cmd32 0x00000001) = .ok .init ∧
  decode (.cmd32 0x00000002) = .ok .synth ∧
  decode (.cmd32 0x00000003) = .ok .checkFixed ∧
  decode (.cmd32 0x00000404) = .ok (.getRate 4) ∧
  decode (.ustep6 0x01) = .ok .uValidate ∧
  decode (.ustep6 0x0A) = .ok .uCfg ∧
  decode (.ustep6 0x10) = .ok .uFeed55 ∧
  decode (.ustep6 0x13) = .ok .uCache ∧
  decode (.ustep6 0x14) = .ok .uQuerySynth ∧
  decode (.cmd32 0x00000101) = .error (.argNotZero 0x00000101) ∧
  decode (.cmd32 0x80000004) = .error (.reservedBits 0x80000004) ∧
  decode (.cmd32 0x00000005) = .error (.reservedOpcode 0x05) ∧
  ∀ u : BitVec 6, 0x15 ≤ u.toNat → decode (.ustep6 u) = .error (.noSuchMicroStep u)

/-! ### Steps -/

/-- R125, with the model's lists of turns and accesses (notes/assumptions/3.md and 4.md): when it is
the host's turn and its next access writes the word of a command to `CMD`, the
step is `exec` of that command, with the turn and the access taken from their lists. -/
def Obligations.StepRunsCommand : Prop :=
  ∀ (s : State) (i : Instr) (w : Word) (sched : List Turn) (q : List HostAccess),
    s.params.ok = true → encode i = .cmd32 w →
    s.env.schedule = .host :: sched → s.env.hostQueue = .write s.params.blockBase 4 w :: q →
    step s = exec i { s with env := { s.env with schedule := sched, hostQueue := q } }

/-- R44, R128, with the model's list of turns (notes/assumptions/3.md and 8.md): when it is the
block's turn and `BUSY = 1`, the step is `exec` of the micro-step whose
code `ustep` holds, with the turn taken from the schedule; when `BUSY = 0` it changes nothing else. -/
def Obligations.StepRunsMicroStep : Prop :=
  ∀ (s : State) (i : Instr) (sched : List Turn),
    s.params.ok = true → s.env.schedule = .block :: sched →
    (s.busy = true → encode i = .ustep6 s.ustep →
      step s = exec i { s with env := { s.env with schedule := sched } }) ∧
    (s.busy = false → step s = .next { s with env := { s.env with schedule := sched } })

/-- The model's own loading convention (notes/assumptions/7.md): the step after `withFetchWord` runs
exactly the instruction stored, of either format. -/
def Obligations.FetchWordRuns : Prop :=
  (∀ (s : State) (i : Instr) (w : Word), s.params.ok = true → encode i = .cmd32 w →
    step (s.withFetchWord 32 w.toNat) = exec i s) ∧
  (∀ (s : State) (i : Instr) (u : BitVec 6), s.params.ok = true → encode i = .ustep6 u →
    step (s.withFetchWord 8 u.toNat) = exec i { s with ustep := u, busy := true })

/-- R150, R52: a reset turn sets every element of SD2-CLK's state to its reset value, whatever was in
progress. That the parameters and what stands outside the block stay, and that reset is a turn, is
the model's (notes/assumptions/6.md). -/
def Obligations.ResetTurnResets : Prop :=
  ∀ (s : State) (sched : List Turn), s.params.ok = true → s.env.schedule = .reset :: sched →
    ∃ t, step s = .next t ∧ t.params = s.params ∧ t.env = { s.env with schedule := sched } ∧
      (∀ off, off < 256 → windowRead t off = 0) ∧
      t.busy = false ∧ t.initDone = false ∧ t.halted = false ∧ t.synOk = false ∧
      t.seqState = .disabled ∧ t.fault = .none ∧ t.cerr = .none ∧ t.ustep = Ucode.idle ∧
      t.fatalO = false ∧ t.trace = [] ∧ t.rate = s.params.bootRate.map (BitVec.ofNat 32) ∧
      t.curK = 0 ∧ t.curN = 0 ∧ t.feedRet = 0 ∧ t.en0 = false ∧ t.conn0 = false

/-! ### The register window -/

/-- R26: the register map. Each register that exists stands at its offset of the table, with its
class, and nothing else stands in the window. -/
def Obligations.RegisterMap : Prop :=
  (∀ (p : Params) (off : Nat) (r : Reg), p.numPbus ≤ 16 →
    (regAt p.numPbus off = some r ↔ (RegExists p r ∧ regOffset r = off))) ∧
  (∀ (r : Reg) (off : Nat) (c : AccessClass), (r, off, c) ∈ registerTable →
    regOffset r = off ∧ regClass r = c) ∧
  (∀ n, regOffset (.pbusDiv n) = 0x040 + 4 * n ∧ regClass (.pbusDiv n) = .cfg) ∧
  (∀ r : Reg, (∃ n, r = .pbusDiv n) ∨ (r, regOffset r, regClass r) ∈ registerTable)

/-- R27: a reserved offset reads as 0 and ignores writes; a reserved bit reads as 0 and what is
written to it is dropped; `CMD` is the exception, its reserved bits are checked. -/
def Obligations.ReservedReadsZero : Prop :=
  (∀ (s : State) (off : Nat) (v : Word), regAt s.params.numPbus off = none →
    windowRead s off = 0 ∧ windowWrite exec off v s = .next s) ∧
  (∀ (s : State) (off : Nat) (r : Reg), regAt s.params.numPbus off = some r →
    windowRead s off &&& ~~~ regMask r = 0) ∧
  (∀ (s : State) (r : Reg) (v : Word), storeReg r v s = storeReg r (v &&& regMask r) s) ∧
  (∀ (np : Nat) (v : Word), 0x10000 ≤ v.toNat → illegalWord np v = true)

/-- R27, R58, R66: a word stored in a register is read back but for its reserved bits, and no other
offset of the window reads differently. -/
def Obligations.ReadBackAfterStore : Prop :=
  ∀ (s : State) (off : Nat) (r : Reg) (v : Word), s.params.numPbus ≤ 16 →
    s.pbusDiv.length = s.params.numPbus → regAt s.params.numPbus off = some r →
    (regClass r = .cfg ∨ regClass r = .qry) →
    windowRead (storeReg r v s) off = v &&& regMask r ∧
    ∀ off', off' ≠ off → windowRead (storeReg r v s) off' = windowRead s off'

/-- R57: an admitted read gives the host the value at the offset and changes nothing of SD2-CLK, so
that a second read gives the same; `CMD` reads 0. -/
def Obligations.HostReadHasNoSideEffect : Prop :=
  (∀ (s : State) (off : Nat), off % 4 = 0 → off ≤ 0xFC →
    ∃ t, hostAccess exec (.read (s.params.blockBase + off) 4) s = .next t ∧
      t = { s with env := { s.env with readLog := s.env.readLog ++ [windowRead s off] } } ∧
      windowRead t off = windowRead s off) ∧
  (∀ s : State, windowRead s 0x000 = 0)

/-- R26, R75: the value each register reads as, field by field, as a number. -/
def Obligations.RegisterWords : Prop :=
  ∀ s : State,
    windowRead s 0x008 = s.rateOut ∧
    (windowRead s 0x00C).toNat =
      s.pllResult.m.toNat + 2 ^ 16 * s.pllResult.n.toNat + 2 ^ 24 * s.pllResult.d.toNat ∧
    windowRead s 0x010 = s.oscFreq[0] ∧ windowRead s 0x014 = s.oscFreq[1] ∧
    windowRead s 0x018 = s.oscFreq[2] ∧ windowRead s 0x01C = s.oscFreq[3] ∧
    (windowRead s 0x020).toNat = s.oscEn.toNat ∧
    (windowRead s 0x024).toNat = s.clkSrc.toNat ∧
    (windowRead s 0x028).toNat = s.pllMode.toNat ∧
    windowRead s 0x02C = s.desiredFreq ∧
    (windowRead s 0x030).toNat = s.fixedMN.m.toNat + 2 ^ 16 * s.fixedMN.n.toNat ∧
    (windowRead s 0x034).toNat = s.cpuDiv.toNat ∧
    (windowRead s 0x038).toNat = s.usbEn.toNat + 2 ^ 8 * s.usbDiv.toNat ∧
    (windowRead s 0x03C).toNat = s.oscEnabled.toNat + 2 ^ 4 * s.oscStable.toNat ∧
    (∀ n, n < s.params.numPbus → s.params.numPbus ≤ 16 →
      (windowRead s (0x040 + 4 * n)).toNat = (pbusDivOf s n).toNat) ∧
    windowRead s 0x080 = s.synFin ∧ windowRead s 0x084 = s.synFout ∧
    (windowRead s 0x088).toNat = s.synMN.m.toNat + 2 ^ 16 * s.synMN.n.toNat ∧
    (windowRead s 0x08C).toNat =
      s.synResult.m.toNat + 2 ^ 16 * s.synResult.n.toNat + 2 ^ 24 * s.synResult.d.toNat ∧
    windowRead s 0x090 = s.synFcco

/-- R28: the fields of `STATUS`, each at its bits. -/
def Obligations.StatusFields : Prop :=
  ∀ s : State,
    (windowRead s 0x004).toNat =
      s.busy.toNat + 2 * s.initDone.toNat + 4 * s.halted.toNat + 8 * s.synOk.toNat +
      2 ^ 4 * (seqStateCode s.seqState).toNat + 2 ^ 8 * (phaseOf s.ustep).toNat +
      2 ^ 12 * (faultCode s.fault).toNat + 2 ^ 16 * (cmdErrorCode s.cerr).toNat +
      2 ^ 20 * s.ustep.toNat

/-- R29, R30, R136, R139: the numbers of the coded fields of `STATUS`, and the phase of every
micro-step. -/
def Obligations.FieldCodesAndPhases : Prop :=
  [SeqState.disabled, .enabling, .locked, .connected].map seqStateCode = [0, 1, 2, 3] ∧
  [FaultCode.none, .unsatisfiable, .inputRange, .invalidDivider, .fccoRange, .mnRange, .cpuRate,
    .usbRate, .badMode].map faultCode = [0, 1, 2, 3, 4, 5, 6, 7, 8] ∧
  [CmdError.none, .illegal, .busy, .reinit, .halted, .locked].map cmdErrorCode =
    [0, 1, 2, 3, 4, 5] ∧
  ∀ u : BitVec 6, u.toNat ≤ 0x14 → (phaseOf u).toNat =
    if u = 0x00 then 0 else if u = 0x01 then 1 else if u.toNat ≤ 0x03 then 2
    else if u.toNat ≤ 0x10 then 3 else if u.toNat ≤ 0x12 then 4 else if u = 0x13 then 5 else 6

/-- R58, R26: the class of every register, and a host write to a `CFG`, `QRY` or `RO` register or to a
reserved offset: what is refused with which code, what is stored, what is ignored. -/
def Obligations.HostWriteByClass : Prop :=
  (∀ r : Reg, regClass r =
    if r = .cmd then .wo
    else if r = .status ∨ r = .rateOut ∨ r = .pllResult ∨ r = .oscStatus ∨ r = .synResult ∨
      r = .synFcco then .ro
    else if r = .synFin ∨ r = .synFout ∨ r = .synMNIn then .qry
    else .cfg) ∧
  ∀ (s : State) (off : Nat) (v : Word), off % 4 = 0 → off ≤ 0xFC →
    ∀ t, t = hostAccess exec (.write (s.params.blockBase + off) 4 v) s →
    (regAt s.params.numPbus off = none → t = .next s) ∧
    ∀ r, regAt s.params.numPbus off = some r →
      (regClass r = .ro → t = .next s) ∧
      (regClass r = .cfg ∨ regClass r = .qry → s.halted = true →
        t = .next { s with cerr := .halted }) ∧
      (regClass r = .cfg ∨ regClass r = .qry → s.halted = false → s.busy = true →
        t = .next { s with cerr := .busy }) ∧
      (regClass r = .cfg → s.halted = false → s.busy = false → s.initDone = true →
        t = .next { s with cerr := .locked }) ∧
      (regClass r = .cfg → s.halted = false → s.busy = false → s.initDone = false →
        t = .next (storeReg r v s) ∧ (storeReg r v s).cerr = s.cerr) ∧
      (regClass r = .qry → s.halted = false → s.busy = false →
        t = .next (storeReg r v s) ∧ (storeReg r v s).cerr = s.cerr)

/-- R56: an access to the window that is no aligned 32-bit access has no step. -/
def Obligations.InadmissibleAccessHasNoStep : Prop :=
  ∀ (s : State) (off size : Nat) (v : Word), off < 256 → 0 < size →
    ¬ (size = 4 ∧ off % 4 = 0 ∧ off ≤ 0xFC) →
    hostAccess exec (.read (s.params.blockBase + off) size) s =
      .refused (.busError (s.params.blockBase + off) size) ∧
    hostAccess exec (.write (s.params.blockBase + off) size v) s =
      .refused (.busError (s.params.blockBase + off) size)

/-- R55: lane `i` carries bits `[8i+7 : 8i]`, and the four lanes are the word. -/
def Obligations.LanesAreLittleEndian : Prop :=
  ∀ v : Word, ofLanes (lane v 0) (lane v 1) (lane v 2) (lane v 3) = v ∧
    ∀ i, i < 4 → (lane v i).toNat = v.toNat / 2 ^ (8 * i) % 256

/-! ### Commands -/

/-- R125: any word written to a halted or a busy block, and `INIT` after `INIT_DONE`, set `CERR` to
the first matching code and do nothing else. -/
def Obligations.CommandRefusals : Prop :=
  ∀ (s : State) (v : Word),
    (s.halted = true → windowWrite exec 0x000 v s = .next { s with cerr := .halted }) ∧
    (s.halted = false → s.busy = true →
      windowWrite exec 0x000 v s = .next { s with cerr := .busy }) ∧
    (s.halted = false → s.busy = false → s.initDone = true → v = 0x00000001 →
      windowWrite exec 0x000 v s = .next { s with cerr := .reinit })

/-- R126, R127, R89: what `NOP`, `INIT` and `SYNTH` do when they are accepted. -/
def Obligations.StartingCommandsAccepted : Prop :=
  ∀ s : State, s.halted = false → s.busy = false →
    exec .nop s = .next { s with cerr := .none } ∧
    (s.initDone = false →
      exec .init s = .next { s with cerr := .none, busy := true, ustep := 0x01 }) ∧
    exec .synth s = .next { s with cerr := .none, busy := true, ustep := 0x14 }

/-- R77, R124: `GET_RATE d` copies `RATE[d]` to `RATE_OUT`; for a `d` that names no domain it is
illegal and nothing but `CERR` changes. -/
def Obligations.GetRateCopies : Prop :=
  ∀ (s : State) (d : BitVec 8), s.halted = false → s.busy = false →
    (∀ x : Word, d.toNat ≤ 2 + s.params.numPbus → s.rate[d.toNat]? = some x →
      exec (.getRate d) s = .next { s with cerr := .none, rateOut := x }) ∧
    (2 + s.params.numPbus < d.toNat →
      exec (.getRate d) s = .next { s with cerr := .illegal })

/-- R88, R91: `CHECK_FIXED` on a legal pair and on any other. -/
def Obligations.CheckFixedResult : Prop :=
  ∀ s : State, s.params.ok = true → s.halted = false → s.busy = false →
    (PairLegal s.params s.synFin.toNat s.synMN.m.toNat s.synMN.n.toNat →
      ∃ x : Word, x.toNat = 2 * s.synFin.toNat * s.synMN.m.toNat / s.synMN.n.toNat ∧
        exec .checkFixed s = .next { s with
          cerr := .none, synResult := ⟨s.synMN.m, s.synMN.n, 0⟩, synFcco := x, synOk := true }) ∧
    (¬ PairLegal s.params s.synFin.toNat s.synMN.m.toNat s.synMN.n.toNat →
      exec .checkFixed s = .next { s with
        cerr := .none, synResult := ⟨0, 0, 0⟩, synFcco := 0, synOk := false })

/-! ### The search -/

/-- R85 items 1 and 2: `SEARCH` returns exactly the first triple, in the order smallest `N`, largest
`M`, smallest `D`, that satisfies the contract, and `Unsat` exactly when there is none. -/
def Obligations.SearchReturnsFirstMatch : Prop :=
  ∀ (p : Params) (fin fout : Nat),
    (∀ c, search p fin fout = some c ↔
      (Match p fin fout c ∧ ∀ c', Match p fin fout c' → NoLater c c')) ∧
    (search p fin fout = none ↔ ∀ c, ¬ Match p fin fout c)

/-- R85 item 3: the innermost loop may be replaced by one division. -/
def Obligations.SearchByDivisionAgrees : Prop :=
  ∀ (p : Params) (fin fout : Nat), p.ok = true →
    search p fin fout = searchByDivision p fin fout

/-- R85 items 4, 5 and 6: inputs that are always `Unsat`. -/
def Obligations.SearchUnsatInputs : Prop :=
  ∀ (p : Params) (fin fout : Nat), p.ok = true →
    search p fin 0 = none ∧ search p 0 fout = none ∧
    (p.fccoMax / 2 < fout → search p fin fout = none) ∧
    (fout * 255 < p.fccoMin → search p fin fout = none)

/-- R86: a target of exactly `FCCO_MAX / 2` succeeds exactly under the condition the rule gives, which
not every input meets, and one unit above it fails for every input. -/
def Obligations.BoundaryFrequency : Prop :=
  (∀ (p : Params) (fin : Nat), p.ok = true →
    ((∃ fout, 2 * fout = p.fccoMax ∧ (search p fin fout).isSome = true) ↔
      (p.fccoMax % 2 = 0 ∧ ∃ n m, p.nMin ≤ n ∧ n ≤ p.nMax ∧ p.mMin ≤ m ∧ m ≤ p.mMax ∧
        2 * fin * m = p.fccoMax * n)) ∧
    search p fin (p.fccoMax / 2 + 1) = none) ∧
  ∃ (p : Params) (fin : Nat), p.ok = true ∧ 0 < fin ∧ search p fin (p.fccoMax / 2) = none

/-- R90: `U_QUERY_SYNTH` writes the triple, its exact `Fcco = fout * D` and `SYN_OK`, or zeros, and
ends the query. -/
def Obligations.QuerySynthResult : Prop :=
  ∀ s : State, s.params.ok = true →
    (∀ c, search s.params s.synFin.toNat s.synFout.toNat = some c →
      ∃ (r : Triple) (x : Word), r.m.toNat = c.m ∧ r.n.toNat = c.n ∧ r.d.toNat = c.d ∧
        x.toNat = s.synFout.toNat * c.d ∧
        exec .uQuerySynth s = .next { s with
          synResult := r, synFcco := x, synOk := true, busy := false, ustep := 0x00 }) ∧
    (search s.params s.synFin.toNat s.synFout.toNat = none →
      exec .uQuerySynth s = .next { s with
        synResult := ⟨0, 0, 0⟩, synFcco := 0, synOk := false, busy := false, ustep := 0x00 })

/-! ### Validation, the oscillators, and the derivation -/

/-- R130: the list of in-use oscillators is `U` in ascending order, never empty, and `next_osc(k)` is
its smallest member above `k`. -/
def Obligations.InUseAscending : Prop :=
  ∀ s : State,
    (∀ k, k ∈ inUse s ↔ InUse s k) ∧
    (inUse s).Pairwise (fun a b => a.toNat < b.toNat) ∧ inUse s ≠ [] ∧
    (∀ k j, nextOsc s k = some j ↔
      (InUse s j ∧ k.toNat < j.toNat ∧ ∀ i, InUse s i → k.toNat < i.toNat → j.toNat ≤ i.toNat)) ∧
    (∀ k, nextOsc s k = none ↔ ∀ i, InUse s i → i.toNat ≤ k.toNat)

/-- R131: on a legal configuration `U_VALIDATE` sets `h.cur_k` to the least in-use oscillator and
goes on to `U_OSC_EN`. -/
def Obligations.ValidatePasses : Prop :=
  ∀ (s : State) (k : BitVec 2), ConfigLegal s → InUse s k →
    (∀ j, InUse s j → k.toNat ≤ j.toNat) →
    exec .uValidate s = .next { s with curK := k, ustep := 0x02 }

/-- R131, R137, R142: the checks of `U_VALIDATE` in their order; the first failing one halts the
block with its code and changes nothing else. -/
def Obligations.ValidateFaultsInOrder : Prop :=
  ∀ s : State,
    ∀ halt : FaultCode → Result,
    (∀ c, halt c = .next { s with fault := c, halted := true, busy := false, fatalO := true }) →
    (s.pllMode = modeReserved → exec .uValidate s = halt .badMode) ∧
    (s.pllMode ≠ modeReserved →
      ((∃ k, InUse s k ∧ ¬ OscLegal s k) → exec .uValidate s = halt .inputRange) ∧
      ((∀ k, InUse s k → OscLegal s k) →
        (¬ (CpuDivLegal s ∧ UsbDivLegal s ∧ BusDivsLegal s) →
          exec .uValidate s = halt .invalidDivider) ∧
        (CpuDivLegal s → UsbDivLegal s → BusDivsLegal s → s.pllMode = modeFixed →
          (¬ (s.params.mMin ≤ s.fixedMN.m.toNat ∧ s.fixedMN.m.toNat ≤ s.params.mMax ∧
              s.params.nMin ≤ s.fixedMN.n.toNat ∧ s.fixedMN.n.toNat ≤ s.params.nMax) →
            exec .uValidate s = halt .mnRange) ∧
          (s.params.mMin ≤ s.fixedMN.m.toNat ∧ s.fixedMN.m.toNat ≤ s.params.mMax ∧
              s.params.nMin ≤ s.fixedMN.n.toNat ∧ s.fixedMN.n.toNat ≤ s.params.nMax →
            ¬ PairLegal s.params (finOf s) s.fixedMN.m.toNat s.fixedMN.n.toNat →
            exec .uValidate s = halt .fccoRange))))

/-- R132, R133: `U_OSC_EN` and `U_OSC_POLL`, for either answer of the plant. -/
def Obligations.OscillatorSteps : Prop :=
  ∀ s : State,
    (exec .uOscEn s = .next { s with
      trace := s.trace ++ [.oscEn s.curK], oscEnabled := setBit4 s.oscEnabled s.curK,
      ustep := 0x03 }) ∧
    (s.params.readyBypass = false → oscStatAnswer s = false →
      exec .uOscPoll s = .next { s with
        trace := s.trace ++ [.oscStat s.curK false], env := (drawOscStat s.env).2,
        ustep := 0x03 }) ∧
    (s.params.readyBypass = true ∨ oscStatAnswer s = true →
      (∀ k, InUse s k → s.curK.toNat < k.toNat →
        (∀ j, InUse s j → s.curK.toNat < j.toNat → k.toNat ≤ j.toNat) →
        exec .uOscPoll s = .next { s with
          trace := s.trace ++ [.oscStat s.curK (oscStatAnswer s)], env := (drawOscStat s.env).2,
          oscStable := setBit4 s.oscStable s.curK, curK := k, ustep := 0x02 }) ∧
      ((∀ j, InUse s j → j.toNat ≤ s.curK.toNat) →
        exec .uOscPoll s = .next { s with
          trace := s.trace ++ [.oscStat s.curK (oscStatAnswer s)], env := (drawOscStat s.env).2,
          oscStable := setBit4 s.oscStable s.curK, ustep := 0x04 })) ∧
    (∀ (x : BitVec 4) (k j : BitVec 2),
      (setBit4 x k).getLsbD j.toNat = (decide (j = k) || x.getLsbD j.toNat))

/-- R134: a choice that passes both rate limits becomes `PLL_RESULT`. -/
def Obligations.DerivePasses : Prop :=
  ∀ (s : State) (c : PllChoice), s.params.ok = true →
    Chosen s c → CpuRateLegal s c → UsbRateLegal s c →
    ∃ r : Triple, r.m.toNat = c.m ∧ r.n.toNat = c.n ∧ r.d.toNat = c.d ∧
      exec .uDerive s = .next { s with pllResult := r, ustep := 0x05 }

/-- R134, R137, R142: the faults of `U_DERIVE` in their order, nothing else changed. -/
def Obligations.DeriveFaultsInOrder : Prop :=
  ∀ s : State,
    ∀ halt : FaultCode → Result,
    (∀ c, halt c = .next { s with fault := c, halted := true, busy := false, fatalO := true }) →
    (s.pllMode = modeSynth → (∀ c, ¬ Match s.params (finOf s) s.desiredFreq.toNat c) →
      exec .uDerive s = halt .unsatisfiable) ∧
    (∀ c, Chosen s c →
      (¬ CpuRateLegal s c → exec .uDerive s = halt .cpuRate) ∧
      (CpuRateLegal s c → ¬ UsbRateLegal s c → exec .uDerive s = halt .usbRate))

/-! ### The sequencer -/

/-- R97: the one sample decides both disable steps. -/
def Obligations.SampleDecidesDisable : Prop :=
  ∀ (s : State) (a : PStat), pstatAnswer s = a →
    exec .uPstatSample s = .next { s with
      trace := s.trace ++ [.pstat a], env := (drawPstat s.env).2, en0 := a.en, conn0 := a.conn,
      ustep := if a.conn = true then 0x06 else if a.en = true then 0x07 else 0x08 }

/-- R98 to R103, R105: the writes of the sequencer and their successors. -/
def Obligations.SequencerWrites : Prop :=
  ∀ s : State,
    exec .uDisconnect s = .next { s with
      trace := s.trace ++ [.pcon s.en0 false], ustep := 0x0F,
      feedRet := if s.en0 = true then 0x07 else 0x08 } ∧
    exec .uDisable s = .next { s with
      trace := s.trace ++ [.pcon false false], feedRet := 0x08, ustep := 0x0F } ∧
    exec .uSrcSel s = .next { s with
      trace := s.trace ++ [.clkSrc s.clkSrc], seqState := .disabled, ustep := 0x09 } ∧
    (s.pllMode ≠ modeBypass → exec .uCpuDiv s = .next { s with
      trace := s.trace ++ [.cpuDiv s.pllResult.d], ustep := 0x0A }) ∧
    exec .uCfg s = .next { s with
      trace := s.trace ++ [.pcfg s.pllResult.m s.pllResult.n], feedRet := 0x0B, ustep := 0x0F } ∧
    exec .uEnable s = .next { s with
      trace := s.trace ++ [.pcon true false], feedRet := 0x0C, ustep := 0x0F } ∧
    exec .uConnect s = .next { s with
      trace := s.trace ++ [.pcon true true], feedRet := 0x0E, ustep := 0x0F }

/-- R107, R108: the two feed writes. -/
def Obligations.FeedWrites : Prop :=
  ∀ s : State,
    exec .uFeedAa s = .next { s with trace := s.trace ++ [.feed 0xAA], ustep := 0x10 } ∧
    exec .uFeed55 s = .next { s with
      trace := s.trace ++ [.feed 0x55], ustep := s.feedRet,
      seqState := if s.feedRet = 0x0C then .enabling else s.seqState }

/-- R104, R106, R117: the lock and the connect wait, for either answer of the plant, and the entry to
the `DIVIDERS` phase. -/
def Obligations.LockAndConnectPolls : Prop :=
  ∀ (s : State) (a : PStat), pstatAnswer s = a →
    (s.params.readyBypass = true ∨ a.lock = true →
      exec .uLockPoll s = .next { s with
        trace := s.trace ++ [.pstat a], env := (drawPstat s.env).2, seqState := .locked,
        ustep := 0x0D }) ∧
    (s.params.readyBypass = false → a.lock = false →
      exec .uLockPoll s = .next { s with
        trace := s.trace ++ [.pstat a], env := (drawPstat s.env).2, ustep := 0x0C }) ∧
    (s.params.readyBypass = true ∨ a.conn = true →
      exec .uConnPoll s = .next { s with
        trace := s.trace ++ [.pstat a], env := (drawPstat s.env).2, seqState := .connected,
        curN := 0, ustep := if s.usbEn = true then 0x11 else 0x12 }) ∧
    (s.params.readyBypass = false → a.conn = false →
      exec .uConnPoll s = .next { s with
        trace := s.trace ++ [.pstat a], env := (drawPstat s.env).2, ustep := 0x0E })

/-- R96, R141: with no bypass, a wait whose bit reads 0 in `k` answers is, after `k` turns of the
block, where it was: only the trace has grown. There is no timeout. -/
def Obligations.WaitsHaveNoTimeout : Prop :=
  ∀ (s : State) (sched : List Turn) (k : Nat), s.params.ok = true →
    s.params.readyBypass = false → s.busy = true →
    s.env.schedule = List.replicate k .block ++ sched →
    (∀ (as rest : List PStat), as.length = k → s.env.pstatAnswers = as ++ rest →
      (s.ustep = 0x0C ∧ (∀ a, a ∈ as → a.lock = false)) ∨
        (s.ustep = 0x0E ∧ (∀ a, a ∈ as → a.conn = false)) →
      runFor k s = .next { s with
        env := { s.env with schedule := sched, pstatAnswers := rest },
        trace := s.trace ++ as.map .pstat }) ∧
    (∀ rest : List Bool, s.env.oscAnswers = List.replicate k false ++ rest → s.ustep = 0x03 →
      runFor k s = .next { s with
        env := { s.env with schedule := sched, oscAnswers := rest },
        trace := s.trace ++ List.replicate k (.oscStat s.curK false) })

/-! ### The clock tree -/

/-- R101, R117, R118, R119: the `BYPASS` end of the PLL phase and the writes of the `DIVIDERS` phase,
bus by bus in ascending order. -/
def Obligations.DividerWrites : Prop :=
  ∀ s : State,
    (s.pllMode = modeBypass → exec .uCpuDiv s = .next { s with
      trace := s.trace ++ [.cpuDiv s.pllResult.d], curN := 0,
      ustep := if s.usbEn = true then 0x11 else 0x12 }) ∧
    exec .uUsbDiv s = .next { s with trace := s.trace ++ [.usbDiv s.usbDiv], ustep := 0x12 } ∧
    (∀ d, s.pbusDiv[s.curN.toNat]? = some d →
      (∀ n : BitVec 4, n.toNat = s.curN.toNat + 1 → n.toNat < s.params.numPbus →
        exec .uPbusDiv s = .next { s with
          trace := s.trace ++ [.pbusDiv s.curN d], curN := n, ustep := 0x12 }) ∧
      (s.params.numPbus ≤ s.curN.toNat + 1 →
        exec .uPbusDiv s = .next { s with
          trace := s.trace ++ [.pbusDiv s.curN d], ustep := 0x13 }))

/-- R120, R111: on a legal configuration and result, `U_CACHE` caches the floor of every exact domain
frequency, none of them cut to 32 bits, and ends `INIT`. -/
def Obligations.CacheHoldsExactFloors : Prop :=
  ∀ s : State, s.params.ok = true → ConfigLegal s → DerivedLegal s →
    ∃ r : List Word, r.length = 3 + s.params.numPbus ∧
      exec .uCache s = .next { s with rate := r, initDone := true, busy := false, ustep := 0x00 } ∧
      CacheAgrees { s with rate := r, initDone := true, busy := false, ustep := 0x00 }

/-- R128: `U_IDLE` is no micro-step; that `exec` of it answers the same state is the model's form of
it (notes/assumptions/8.md). -/
def Obligations.IdleChangesNothing : Prop := ∀ s : State, exec .uIdle s = .next s

/-! ### Who changes what -/

/-- R14, R61, R65: a step that is no reset issues at most one port operation, at the end of the
trace, and a host access issues none. -/
def Obligations.OnePortOperationPerStep : Prop :=
  ∀ s t : State, NotReset s → step s = .next t →
    ∃ es, t.trace = s.trace ++ es ∧ es.length ≤ 1 ∧ (nextTurn s = .host → es = [])

/-- R31, R32, R33: the result registers change only where the rules say: `RATE_OUT` by `GET_RATE`,
`PLL_RESULT` by `U_DERIVE`, `SYN_RESULT` and `SYN_FCCO` by `CHECK_FIXED` and `U_QUERY_SYNTH`. -/
def Obligations.ResultRegistersChangeOnlyBy : Prop :=
  ∀ s t : State, NotReset s → step s = .next t →
    (t.rateOut ≠ s.rateOut →
      ∃ d w, HostCommandIs s w ∧ encode (.getRate d) = .cmd32 w) ∧
    (t.pllResult ≠ s.pllResult →
      nextTurn s = .block ∧ s.busy = true ∧ s.ustep = Ucode.derive) ∧
    (t.synResult ≠ s.synResult ∨ t.synFcco ≠ s.synFcco →
      HostCommandIs s 0x00000003 ∨
        (nextTurn s = .block ∧ s.busy = true ∧ s.ustep = Ucode.querySynth))

/-- R28, R34: the bits that only reset clears, and the parameters, which nothing changes. -/
def Obligations.StickyBits : Prop :=
  ∀ s t : State, step s = .next t →
    t.params = s.params ∧
    (NotReset s →
      (s.initDone = true → t.initDone = true) ∧ (s.halted = true → t.halted = true) ∧
      (∀ k, s.oscEnabled.getLsbD k = true → t.oscEnabled.getLsbD k = true) ∧
      (∀ k, s.oscStable.getLsbD k = true → t.oscStable.getLsbD k = true))

/-- R25, R156: a `CFG` register changes only by a host write to a `CFG` register of a block that is
neither halted nor busy nor done with `INIT`; from `INIT_DONE` on the configuration is read-only until
reset. -/
def Obligations.ConfigurationLock : Prop :=
  ∀ s t : State, NotReset s → step s = .next t → ¬ SameConfig s t →
    nextTurn s = .host ∧ s.halted = false ∧ s.busy = false ∧ s.initDone = false ∧
    ∃ off v r, s.env.hostQueue.head? = some (.write (s.params.blockBase + off) 4 v) ∧
      regAt s.params.numPbus off = some r ∧ regClass r = .cfg

/-- R137, R143: after a fatal fault the block takes no step and every host write is refused: whatever
happens, short of a reset, changes nothing but `CERR` and what stands outside. -/
def Obligations.HaltedUntilReset : Prop :=
  ∀ s t : State, ControlInv s → s.halted = true → NotReset s → step s = .next t →
    ∃ c e, t = { s with cerr := c, env := e } ∧ (c = s.cerr ∨ c = .halted)

/-- R155: while `BUSY = 1` the host's steps change nothing but `CERR` and what stands outside. -/
def Obligations.HostRefusedWhileBusy : Prop :=
  ∀ s t : State, s.halted = false → s.busy = true → nextTurn s = .host → step s = .next t →
    ∃ c e, t = { s with cerr := c, env := e } ∧ (c = s.cerr ∨ c = .busy)

/-- R121: the rate cache changes only in the `U_CACHE` step, which completes `INIT`, and never after
it: hence at most once between two resets. -/
def Obligations.CacheWrittenOnce : Prop :=
  ∀ s t : State, ControlInv s → NotReset s → step s = .next t →
    (t.rate ≠ s.rate → nextTurn s = .block ∧ s.busy = true ∧ s.ustep = Ucode.cache ∧
      s.initDone = false ∧ t.initDone = true) ∧
    (s.initDone = true → t.initDone = true ∧ t.rate = s.rate)

/-! ### Invariants of every step -/

/-- Every invariant below holds after reset, under every configuration (R52). -/
def Obligations.InvariantsAtReset : Prop :=
  ∀ p : Params, p.ok = true →
    ControlInv (State.resetWith p) ∧ FeedInv (State.resetWith p) ∧ DataInv (State.resetWith p) ∧
    PairInv (State.resetWith p) ∧ SeqInv (State.resetWith p)

/-- R79, R128, R137, R138: every step keeps the controller's invariant. -/
def Obligations.ControlInvKept : Prop :=
  ∀ s t : State, ControlInv s → step s = .next t → ControlInv t

/-- R93: the feed rule of the port trace holds after reset, every step keeps it, and the trace as it
stands obeys it whenever no feed is in progress. -/
def Obligations.FeedRuleKept : Prop :=
  (∀ p : Params, p.ok = true →
    ControlInv (State.resetWith p) ∧ FeedInv (State.resetWith p)) ∧
  (∀ s t : State, ControlInv s → FeedInv s → step s = .next t → FeedInv t) ∧
  (∀ s : State, FeedInv s → ¬ InFeed s → FeedRule s.trace)

/-- R53, R56, R79, R131: in a state that meets the invariants a step stops only on the host's next
access, and only when that access is not admitted: refused when it touches the window, a fault when it
does not (notes/assumptions/9.md). The other stops of the model are for states no run reaches
(notes/assumptions/13.md and 14.md). -/
def Obligations.OnlyBadAccessesStop : Prop :=
  (∀ (s : State) (r : Refusal), ControlInv s → DataInv s → step s = .refused r →
    nextTurn s = .host ∧ ∃ addr size, HostAccessIs s addr size ∧ admitted s addr size = false ∧
      touchesWindow s addr size = true ∧ r = .busError addr size) ∧
  (∀ (s : State) (f : Fault), step s = .fault f →
    nextTurn s = .host ∧ ∃ addr size, HostAccessIs s addr size ∧ admitted s addr size = false ∧
      touchesWindow s addr size = false ∧ f = .outsideWindow addr)

/-- R8 and the model's stops in states no run reaches (notes/assumptions/13.md and 14.md): parameters
that break a constraint, `U_DERIVE` in the reserved mode, which R134 has no line for, and a code that
is no micro-step (R79). -/
def Obligations.StopsAreNamed : Prop :=
  (∀ s : State, s.params.ok = false → step s = .refused .notAConfiguration) ∧
  (∀ s : State, s.pllMode = modeReserved → exec .uDerive s = .refused .reservedMode) ∧
  (∀ (s : State) (sched : List Turn), s.params.ok = true → s.env.schedule = .block :: sched →
    s.busy = true → 0x15 ≤ s.ustep.toNat → step s = .refused (.noSuchMicroStep s.ustep))

/-- R111, R116, R122, R123: every step keeps the agreement of the registers, `PLL_RESULT` and the
rate cache with the configuration. -/
def Obligations.DataInvKept : Prop :=
  ∀ s t : State, ControlInv s → DataInv s → step s = .next t → DataInv t

/-- R49: every `(M, N)` written to the plant meets the `Fcco` invariant. -/
def Obligations.WrittenPairsLegal : Prop :=
  (∀ s t : State, ControlInv s → DataInv s → PairInv s → step s = .next t → PairInv t) ∧
  (∀ (s : State) (m : BitVec 16) (n : BitVec 8), ControlInv s → DataInv s → PairInv s →
    .pcfg m n ∈ s.trace → PairLegal s.params (finOf s) m.toNat n.toNat)

/-- R29, R110: every step keeps the sequencer's invariant. -/
def Obligations.SeqInvKept : Prop :=
  ∀ s t : State, ControlInv s → SeqInv s → step s = .next t → SeqInv t

/-- R110: `SEQ_STATE` moves only from a state to the next of the list, and only in the micro-step that
sets that state; `U_SRC_SEL` sets `DISABLED`, and no host access changes it. -/
def Obligations.SeqStateMovesForward : Prop :=
  (∀ s t : State, ControlInv s → SeqInv s → NotReset s → step s = .next t →
    t.seqState = s.seqState ∨
    (nextTurn s = .block ∧ s.busy = true ∧
      ((s.seqState = .disabled ∧ t.seqState = .enabling ∧ s.ustep = Ucode.feed55 ∧
          s.feedRet = Ucode.lockPoll) ∨
        (s.seqState = .enabling ∧ t.seqState = .locked ∧ s.ustep = Ucode.lockPoll) ∨
        (s.seqState = .locked ∧ t.seqState = .connected ∧ s.ustep = Ucode.connPoll)))) ∧
  (∀ s : State, ∃ t, exec .uSrcSel s = .next t ∧ t.seqState = .disabled) ∧
  (∀ s t : State, nextTurn s = .host → step s = .next t → t.seqState = s.seqState)

/-! ### Whole phases -/

/-- R109: the port trace of the PLL phase, in every mode and for every answer of the plant that lets
the waits end; one micro-step for each of its operations. The lists of turns and answers are the
model's (notes/assumptions/3.md and 5.md). -/
def Obligations.PllPhaseTrace : Prop :=
  ∀ (s : State) (a : PStat) (lock conn : Wait PStat) (rest : List PStat) (sched : List Turn)
    (tr : List PortEvent) (as : List PStat),
    s.params.ok = true → s.busy = true → s.ustep = Ucode.pstatSample →
    lock.Ends s.params PStat.lock → conn.Ends s.params PStat.conn →
    tr = commonPllTrace s a ++ (if s.pllMode = modeBypass then [] else pllModesTrace s lock conn) →
    as = a :: (if s.pllMode = modeBypass then [] else lock.answers ++ conn.answers) →
    s.env.pstatAnswers = as ++ rest →
    s.env.schedule = List.replicate tr.length .block ++ sched →
    ∃ t, runFor tr.length s = .next t ∧ t.trace = s.trace ++ tr ∧ t.seqState = finalSeq s ∧
      t.ustep = (if s.usbEn = true then Ucode.usbDiv else Ucode.pbusDiv) ∧ t.curN = 0 ∧
      t.busy = true ∧ t.env = { s.env with schedule := sched, pstatAnswers := rest }

/-- R118, R119: the port trace of the `DIVIDERS` phase. -/
def Obligations.DividersPhaseTrace : Prop :=
  ∀ (s : State) (sched : List Turn), s.params.ok = true → s.busy = true → s.curN = 0 →
    s.ustep = (if s.usbEn = true then Ucode.usbDiv else Ucode.pbusDiv) →
    s.env.schedule = List.replicate (dividersTrace s).length .block ++ sched →
    ∃ n, runFor (dividersTrace s).length s = .next { s with
      trace := s.trace ++ dividersTrace s, ustep := Ucode.cache, curN := n,
      env := { s.env with schedule := sched } }

/-- R135, R129: the whole port trace of an `INIT` that succeeds, and what it leaves. The lists of turns
and answers are the model's (notes/assumptions/3.md and 5.md). -/
def Obligations.InitRunTrace : Prop :=
  ∀ (s : State) (c : PllChoice) (osc : BitVec 2 → Wait Bool) (a : PStat) (lock conn : Wait PStat)
    (restO : List Bool) (restP : List PStat) (sched : List Turn) (tr : List PortEvent)
    (as : List PStat),
    s.params.ok = true → s.busy = true → s.ustep = Ucode.validate → ConfigLegal s →
    Chosen s c → CpuRateLegal s c → UsbRateLegal s c →
    (∀ k, (osc k).Ends s.params id) →
    lock.Ends s.params PStat.lock → conn.Ends s.params PStat.conn →
    tr = (inUse s).flatMap (fun k => oscTrace k (osc k)) ++
      commonPllTrace { s with pllResult := choiceTriple c } a ++
      (if s.pllMode = modeBypass then []
        else pllModesTrace { s with pllResult := choiceTriple c } lock conn) ++ dividersTrace s →
    as = a :: (if s.pllMode = modeBypass then [] else lock.answers ++ conn.answers) →
    s.env.oscAnswers = (inUse s).flatMap (fun k => (osc k).answers) ++ restO →
    s.env.pstatAnswers = as ++ restP →
    s.env.schedule = List.replicate (tr.length + 3) .block ++ sched →
    ∃ t, runFor (tr.length + 3) s = .next t ∧ t.trace = s.trace ++ tr ∧
      t.initDone = true ∧ t.busy = false ∧ t.ustep = Ucode.idle ∧ t.seqState = finalSeq s ∧
      t.pllResult = choiceTriple c ∧ SameConfig s t ∧ CacheAgrees t

/-- R15, R128: in a run that is fair to the block, a busy block takes the micro-step that `ustep` holds,
however the host's accesses come between, unless a reset comes first; until then nothing changes but
`CERR` and what stands outside. -/
def Obligations.BusyBlockEventuallySteps : Prop :=
  ∀ (r : Nat → State) (n : Nat), FairRun r → ControlInv (r n) → (r n).busy = true →
    ∃ m, n ≤ m ∧ (∃ c e, r m = { r n with cerr := c, env := e }) ∧
      (nextTurn (r m) = .reset ∨
        (nextTurn (r m) = .block ∧ ∃ i, encode i = .ustep6 (r n).ustep ∧
          exec i (popTurn (r m)) = .next (r (m + 1))))
end

