-- ==== Sys2Proof/Laws/Decode.lean ====
section
/-! SUPPORT. What the decoders answer. -/

namespace Sys2Proof

/-- A micro-step decodes from its own code only. -/
theorem decodeUstep_code {u : BitVec 6} {i : Instr} (h : decodeUstep u = .ok i) :
    encode i = .ustep6 u := by
  have all : ∀ u : BitVec 6, (decodeUstep u).toOption.all (fun i => encode i == .ustep6 u) := by
    decide
  have := all u
  rw [h] at this
  simpa [Except.toOption] using this

/-- Every code up to 0x14 decodes (R78). -/
theorem decodeUstep_held (u : BitVec 6) (h : u.toNat ≤ 0x14) : ∃ i, decodeUstep u = .ok i := by
  have all : ∀ u : BitVec 6, u.toNat ≤ 0x14 → (decodeUstep u).toOption.isSome := by decide
  have := all u h
  cases hd : decodeUstep u with
  | ok i => exact ⟨i, rfl⟩
  | error e => rw [hd] at this; simp [Except.toOption] at this

/-- The fields of a command word are its value's digits in base 256 (R73). -/
theorem cmdOp_toNat (w : Word) : (cmdOp w).toNat = w.toNat % 256 := by
  simp [cmdOp, BitVec.extractLsb'_toNat]

theorem cmdArg_toNat (w : Word) : (cmdArg w).toNat = w.toNat / 256 % 256 := by
  simp [cmdArg, BitVec.extractLsb'_toNat, Nat.shiftRight_eq_div_pow]

theorem cmdZ_toNat (w : Word) : (cmdZ w).toNat = w.toNat / 65536 := by
  have := w.isLt
  simp [cmdZ, BitVec.extractLsb'_toNat, Nat.shiftRight_eq_div_pow]
  omega

theorem withoutArg_ok {w : Word} {i j : Instr} (h : withoutArg w i = .ok j) :
    cmdArg w = 0 ∧ j = i := by
  unfold withoutArg at h
  split at h
  · exact ⟨‹_›, by simpa using h.symm⟩
  · cases h

/-- What a command word that decodes looks like. -/
theorem decodeCmd_ok {w : Word} {i : Instr} (h : decodeCmd w = .ok i) :
    cmdZ w = 0 ∧
      ((i = .nop ∧ (cmdOp w).toNat = 0 ∧ cmdArg w = 0) ∨
        (i = .init ∧ (cmdOp w).toNat = 1 ∧ cmdArg w = 0) ∨
        (i = .synth ∧ (cmdOp w).toNat = 2 ∧ cmdArg w = 0) ∨
        (i = .checkFixed ∧ (cmdOp w).toNat = 3 ∧ cmdArg w = 0) ∨
        (i = .getRate (cmdArg w) ∧ (cmdOp w).toNat = 4)) := by
  unfold decodeCmd at h
  split at h
  · cases h
  · rename_i hz
    refine ⟨by simpa using hz, ?_⟩
    split at h <;> first
      | (obtain ⟨ha, rfl⟩ := withoutArg_ok h; simp_all)
      | (cases h; done)
      | (cases h; simp_all)

end Sys2Proof
end

