-- ==== Sys2Proof/Laws/Params.lean ====
section
/-! SUPPORT. What the constraints of R7 give, one fact each. -/

namespace Sys2Proof

/-- The constraints of R7 that the proofs about arithmetic use. -/
structure Params.Facts (p : Params) : Prop where
  mMin : 1 ≤ p.mMin
  mMax : p.mMax ≤ 65535
  nMin : 1 ≤ p.nMin
  nMax : p.nMax ≤ 255
  fccoMin : 1 ≤ p.fccoMin
  fccoLe : p.fccoMin ≤ p.fccoMax
  fccoMax : p.fccoMax ≤ Config.maxWord
  maxCpuRate : p.maxCpuRate ≤ Config.maxWord
  numPbusMin : 1 ≤ p.numPbus
  numPbusMax : p.numPbus ≤ 16
  bootRate : p.bootRate.length = 3 + p.numPbus
  usbDivs : ∀ u, u ∈ p.usbDivSet → 1 ≤ u
  portMap : p.portMap.ok = true

theorem Params.ok_facts {p : Params} (h : p.ok = true) : p.Facts := by
  simp only [Params.ok, List.all_cons, Bool.and_eq_true, decide_eq_true_eq] at h
  obtain ⟨h1, -, h3, h4, -, h6, h7, h8, h9, -, -, -, -, -, -, -, -, -, h19, -, h21, h22, h23, -, h25,
    -, -, h28, -⟩ := h
  refine ⟨h1, h3, h4, h6, h7, h8, h9, h19, h22, h23, h25, fun u hu => ?_, h28⟩
  have h := List.all_eq_true.mp h21 u hu
  simp only [Bool.and_eq_true, decide_eq_true_eq] at h
  exact h.1

end Sys2Proof
end

