-- ==== Sys2Proof/Laws/PerInstr.lean ====
section
/-! SUPPORT. The per-instruction family RoundTrip: an encoded instruction decodes to itself. -/

namespace Sys2Proof.Laws

/-- Decoding the encoding of `i` gives `i` back. -/
def RoundTrip.Statement (i : Instr) : Prop := decode (encode i) = .ok i

theorem RoundTrip.nop : RoundTrip.Statement .nop := by unfold RoundTrip.Statement; decide

theorem RoundTrip.init : RoundTrip.Statement .init := by unfold RoundTrip.Statement; decide

theorem RoundTrip.synth : RoundTrip.Statement .synth := by unfold RoundTrip.Statement; decide

theorem RoundTrip.checkFixed : RoundTrip.Statement .checkFixed := by unfold RoundTrip.Statement; decide

theorem RoundTrip.getRate (d : BitVec 8) : RoundTrip.Statement (.getRate d) := by
  revert d
  unfold RoundTrip.Statement
  decide

theorem RoundTrip.uIdle : RoundTrip.Statement .uIdle := by unfold RoundTrip.Statement; decide

theorem RoundTrip.uValidate : RoundTrip.Statement .uValidate := by unfold RoundTrip.Statement; decide

theorem RoundTrip.uOscEn : RoundTrip.Statement .uOscEn := by unfold RoundTrip.Statement; decide

theorem RoundTrip.uOscPoll : RoundTrip.Statement .uOscPoll := by unfold RoundTrip.Statement; decide

theorem RoundTrip.uDerive : RoundTrip.Statement .uDerive := by unfold RoundTrip.Statement; decide

theorem RoundTrip.uPstatSample : RoundTrip.Statement .uPstatSample := by unfold RoundTrip.Statement; decide

theorem RoundTrip.uDisconnect : RoundTrip.Statement .uDisconnect := by unfold RoundTrip.Statement; decide

theorem RoundTrip.uDisable : RoundTrip.Statement .uDisable := by unfold RoundTrip.Statement; decide

theorem RoundTrip.uSrcSel : RoundTrip.Statement .uSrcSel := by unfold RoundTrip.Statement; decide

theorem RoundTrip.uCpuDiv : RoundTrip.Statement .uCpuDiv := by unfold RoundTrip.Statement; decide

theorem RoundTrip.uCfg : RoundTrip.Statement .uCfg := by unfold RoundTrip.Statement; decide

theorem RoundTrip.uEnable : RoundTrip.Statement .uEnable := by unfold RoundTrip.Statement; decide

theorem RoundTrip.uLockPoll : RoundTrip.Statement .uLockPoll := by unfold RoundTrip.Statement; decide

theorem RoundTrip.uConnect : RoundTrip.Statement .uConnect := by unfold RoundTrip.Statement; decide

theorem RoundTrip.uConnPoll : RoundTrip.Statement .uConnPoll := by unfold RoundTrip.Statement; decide

theorem RoundTrip.uFeedAa : RoundTrip.Statement .uFeedAa := by unfold RoundTrip.Statement; decide

theorem RoundTrip.uFeed55 : RoundTrip.Statement .uFeed55 := by unfold RoundTrip.Statement; decide

theorem RoundTrip.uUsbDiv : RoundTrip.Statement .uUsbDiv := by unfold RoundTrip.Statement; decide

theorem RoundTrip.uPbusDiv : RoundTrip.Statement .uPbusDiv := by unfold RoundTrip.Statement; decide

theorem RoundTrip.uCache : RoundTrip.Statement .uCache := by unfold RoundTrip.Statement; decide

theorem RoundTrip.uQuerySynth : RoundTrip.Statement .uQuerySynth := by unfold RoundTrip.Statement; decide

end Sys2Proof.Laws
end

