-- ==== Sys2Proof/Machine/PortMap.lean ====
section
/-! DEFINITION. The parameter `PORT_MAP` (R63): what the port trace says in the target chip's
registers. A view of the trace; no step reads it (assumption 17). -/

namespace Sys2Proof.Machine

/-- Bits written to or read from one field of a plant register. -/
structure FieldBits where
  addr : Nat
  lo : Nat
  width : Nat
  bits : Nat
  deriving DecidableEq, Repr

/-- A value in a field, if the chip has the field and the value's bits fit in it. -/
def inField (f : Option PlantField) (v : Nat) : Option FieldBits :=
  match f with
  | none => none
  | some f =>
    match f.code.bits v with
    | none => none
    | some b => if b < 2 ^ f.width then some ⟨f.addr, f.lo, f.width, b⟩ else none

/-- A feed byte in its field, as it is (R63). -/
def feedField (f : Option FeedField) (b : Byte) : Option FieldBits :=
  f.map (fun f => ⟨f.addr, f.lo, 8, b.toNat⟩)

/-- A status bit or control bit as a value. -/
def bitValue (b : Bool) : Nat := if b then 1 else 0

/-- The fields a port operation writes, or reads with its answer, with their bits (R60, R63);
`none` where `PORT_MAP` does not give one of them. -/
def plantFields (pm : PortMap) (e : PortEvent) : Option (List FieldBits) :=
  match e with
  | .oscEn k => [inField (pm.oscEn.lookup k.toNat) 1].mapM id
  | .oscStat k a => [inField (pm.oscStat.lookup k.toNat) (bitValue a)].mapM id
  | .clkSrc k => [inField pm.clkSrc k.toNat].mapM id
  | .pstat a =>
    [inField pm.pstatEn (bitValue a.en), inField pm.pstatConn (bitValue a.conn),
      inField pm.pstatLock (bitValue a.lock)].mapM id
  | .pcon en conn =>
    [inField pm.pconEn (bitValue en), inField pm.pconConn (bitValue conn)].mapM id
  | .pcfg m n => [inField pm.pcfgM m.toNat, inField pm.pcfgN n.toNat].mapM id
  | .feed b => [feedField pm.feed b].mapM id
  | .cpuDiv d => [inField pm.cpuDiv d.toNat].mapM id
  | .usbDiv d => [inField pm.usbDiv d.toNat].mapM id
  | .pbusDiv n d => [inField (pm.pbusDiv.lookup n.toNat) d.toNat].mapM id

/-- The port trace in the target chip's registers (R47, R63). -/
def plantTrace (s : State) : List (Option (List FieldBits)) :=
  s.trace.map (plantFields s.params.portMap)

/-! ### Reading back

`word` gives the value of the plant's register at an address. -/

/-- The bits at a place of a register's value. -/
def bitsAt (lo width word : Nat) : Nat := word / 2 ^ lo % 2 ^ width

/-- The plant's registers hold these bits of a field. -/
def FieldBits.HeldIn (x : FieldBits) (word : Nat → Nat) : Prop :=
  bitsAt x.lo x.width (word x.addr) = x.bits

/-- A status bit read back through its field's value code (R63 "each read's answer back into its
bits"); `none` where the chip has no such field, or the bits are those of neither answer. -/
def statusBit (f : Option PlantField) (word : Nat → Nat) : Option Bool :=
  match f with
  | none => none
  | some f =>
    if f.code.bits 1 = some (bitsAt f.lo f.width (word f.addr)) then some true
    else if f.code.bits 0 = some (bitsAt f.lo f.width (word f.addr)) then some false
    else none

/-- The answer of `PR_OSCSTAT(k)` in the plant's registers. -/
def oscStatOfWord (pm : PortMap) (k : BitVec 2) (word : Nat → Nat) : Option Bool :=
  statusBit (pm.oscStat.lookup k.toNat) word

/-- The answer of `PR_PSTAT` in the plant's registers. -/
def pstatOfWord (pm : PortMap) (word : Nat → Nat) : Option PStat :=
  match statusBit pm.pstatEn word, statusBit pm.pstatConn word, statusBit pm.pstatLock word with
  | some e, some c, some l => some ⟨e, c, l⟩
  | _, _, _ => none

/-- Where a peripheral bus stands among the LPC17xx `PCLKSEL` fields: which of the two registers,
which 2-bit field, and whether it is a CAN field. -/
structure Ref17Bus where
  bus : Nat
  second : Bool
  field : Nat
  can : Bool
  deriving DecidableEq, Repr

/-- The 2-bit code of a bus divider on LPC17xx (R63, REF17): PRESUMED, assumption 17. -/
def ref17PbusField (b : Ref17Bus) : Nat × PlantField :=
  (b.bus,
    { addr := if b.second then 0x400FC1AC else 0x400FC1A8, lo := 2 * b.field, width := 2,
      code := .table [(4, 0), (1, 1), (2, 2), (if b.can then 6 else 8, 3)] })

/-- The reference encoding REF17 (R63, 93_implementation_defined.md G2), from general knowledge and
not normative; `buses` says which field each bus has, which R63 does not. PRESUMED, assumption 17. -/
def ref17PortMap (buses : List Ref17Bus) : PortMap :=
  { oscEn := [(1, ⟨0x400FC1A0, 5, 1, .same⟩)]
    oscStat := [(1, ⟨0x400FC1A0, 6, 1, .same⟩)]
    clkSrc := some ⟨0x400FC10C, 0, 2, .table [(0, 0), (1, 1), (2, 2)]⟩
    pstatEn := some ⟨0x400FC088, 24, 1, .same⟩
    pstatConn := some ⟨0x400FC088, 25, 1, .same⟩
    pstatLock := some ⟨0x400FC088, 26, 1, .same⟩
    pconEn := some ⟨0x400FC080, 0, 1, .same⟩
    pconConn := some ⟨0x400FC080, 1, 1, .same⟩
    pcfgM := some ⟨0x400FC084, 0, 15, .minusOne⟩
    pcfgN := some ⟨0x400FC084, 16, 8, .minusOne⟩
    feed := some ⟨0x400FC08C, 0⟩
    cpuDiv := some ⟨0x400FC104, 0, 8, .minusOne⟩
    usbDiv := some ⟨0x400FC108, 0, 4, .minusOne⟩
    pbusDiv := buses.map ref17PbusField }

end Sys2Proof.Machine
end

