-- ==== Sys2Proof/Laws/PortMap.lean ====
section
/-! SUPPORT. The view `PORT_MAP` (R63): the feed bytes are written as they are, and a read's answer is
turned back into its bits. -/

namespace Sys2Proof.Machine

/-- The feed bytes do not go through a value code (R63). -/
theorem plantFields_feed {pm : PortMap} {f : FeedField} (h : pm.feed = some f) (b : Byte) :
    plantFields pm (.feed b) = some [⟨f.addr, f.lo, 8, b.toNat⟩] := by
  simp [plantFields, feedField, h]

/-- A field that is written stands in its register as the value's bits. -/
theorem inField_some {f : PlantField} {v : Nat} {x : FieldBits} (h : inField (some f) v = some x) :
    f.code.bits v = some x.bits ∧ x.addr = f.addr ∧ x.lo = f.lo ∧ x.width = f.width := by
  unfold inField at h
  dsimp only at h
  split at h
  · cases h
  · split at h
    · cases h
      exact ⟨‹_›, rfl, rfl, rfl⟩
    · cases h

/-- The two answers of a field that can be read back have different bits. -/
theorem readable_ne {f : PlantField} (h : f.readable = true) : f.code.bits 1 ≠ f.code.bits 0 := by
  unfold PlantField.readable at h
  split at h
  · rename_i a b h0 h1
    simp only [Bool.and_eq_true, decide_eq_true_eq] at h
    rw [h0, h1]
    exact fun e => h.1.1 (Option.some.inj e).symm
  all_goals cases h

/-- Reading back the bits of an answer gives the answer. -/
theorem statusBit_of_held {f : PlantField} {b : Bool} {x : FieldBits} {word : Nat → Nat}
    (hr : f.readable = true) (hx : inField (some f) (bitValue b) = some x) (hw : x.HeldIn word) :
    statusBit (some f) word = some b := by
  obtain ⟨hb, ha, hl, hwd⟩ := inField_some hx
  have hne := readable_ne hr
  unfold FieldBits.HeldIn at hw
  rw [ha, hl, hwd] at hw
  unfold statusBit
  dsimp only
  rw [hw]
  cases b <;> simp_all [bitValue]

theorem inField_isSome {f : Option PlantField} {v : Nat} {x : FieldBits} (h : inField f v = some x) :
    ∃ g, f = some g := by
  cases f with
  | none => cases h
  | some g => exact ⟨g, rfl⟩

/-- `PR_PSTAT` read back: where the plant's registers hold the fields of an answer, the answer. -/
theorem pstatOfWord_of_held {pm : PortMap} {a : PStat} {xs : List FieldBits} {word : Nat → Nat}
    (hok : pm.ok = true) (hx : plantFields pm (.pstat a) = some xs)
    (hw : ∀ x, x ∈ xs → x.HeldIn word) : pstatOfWord pm word = some a := by
  simp only [PortMap.ok, List.all_cons, List.all_nil, Bool.and_true, Bool.and_eq_true] at hok
  obtain ⟨-, h1, h2, h3⟩ := hok
  simp only [plantFields, List.mapM_cons, List.mapM_nil, id] at hx
  cases he : inField pm.pstatEn (bitValue a.en) with
  | none => simp [he] at hx
  | some x =>
    cases hc : inField pm.pstatConn (bitValue a.conn) with
    | none => simp [he, hc] at hx
    | some y =>
      cases hl : inField pm.pstatLock (bitValue a.lock) with
      | none => simp [he, hc, hl] at hx
      | some z =>
        simp [he, hc, hl] at hx
        subst hx
        obtain ⟨f, hf⟩ := inField_isSome he
        obtain ⟨g, hg⟩ := inField_isSome hc
        obtain ⟨k, hk⟩ := inField_isSome hl
        rw [hf] at he h1
        rw [hg] at hc h2
        rw [hk] at hl h3
        unfold pstatOfWord
        rw [hf, hg, hk, statusBit_of_held h1 he (hw x (by simp)),
          statusBit_of_held h2 hc (hw y (by simp)), statusBit_of_held h3 hl (hw z (by simp))]

theorem lookup_mem {α : Type} {k : Nat} {v : α} {l : List (Nat × α)} (h : l.lookup k = some v) :
    (k, v) ∈ l := by
  induction l with
  | nil => cases h
  | cons e rest ih =>
    obtain ⟨i, w⟩ := e
    by_cases hk : k = i
    · subst hk
      simp at h
      simp [h]
    · have hb : (k == i) = false := by simpa using hk
      rw [List.lookup_cons, hb] at h
      exact List.mem_cons_of_mem _ (ih h)

/-- `PR_OSCSTAT(k)` read back. -/
theorem oscStatOfWord_of_held {pm : PortMap} {k : BitVec 2} {a : Bool} {xs : List FieldBits}
    {word : Nat → Nat} (hok : pm.ok = true) (hx : plantFields pm (.oscStat k a) = some xs)
    (hw : ∀ x, x ∈ xs → x.HeldIn word) : oscStatOfWord pm k word = some a := by
  simp only [PortMap.ok, Bool.and_eq_true] at hok
  simp only [plantFields, List.mapM_cons, List.mapM_nil, id] at hx
  cases he : inField (pm.oscStat.lookup k.toNat) (bitValue a) with
  | none => simp [he] at hx
  | some x =>
    simp [he] at hx
    subst hx
    obtain ⟨f, hf⟩ := inField_isSome he
    have hr : f.readable = true := List.all_eq_true.mp hok.1 _ (lookup_mem hf)
    rw [hf] at he
    unfold oscStatOfWord
    rw [hf]
    exact statusBit_of_held hr he (hw x (by simp))

end Sys2Proof.Machine
end

