-- ==== Sys2Proof/Laws/Search.lean ====
section
/-! SUPPORT. The loops of `SEARCH` (R83) as membership and order facts. -/

namespace Sys2Proof.Machine

theorem mem_ascending {lo hi x : Nat} : x ∈ ascending lo hi ↔ lo ≤ x ∧ x ≤ hi := by
  simp only [ascending, List.mem_range'_1]
  omega

theorem mem_descending {lo hi x : Nat} : x ∈ descending lo hi ↔ lo ≤ x ∧ x ≤ hi := by
  simp [descending, mem_ascending]

theorem ascending_sorted (lo hi : Nat) : (ascending lo hi).Pairwise (· < ·) := by
  simpa [ascending] using List.pairwise_lt_range' (s := lo) (n := hi + 1 - lo) (step := 1)

theorem descending_sorted (lo hi : Nat) : (descending lo hi).Pairwise (· > ·) := by
  simpa [descending, List.pairwise_reverse] using ascending_sorted lo hi

theorem fccoInRange_iff {p : Params} {num n : Nat} :
    fccoInRange p num n = true ↔ p.fccoMin * n ≤ num ∧ num ≤ p.fccoMax * n := by
  simp [fccoInRange]

/-- All that `CHECKFIXED` can answer (R88). -/
theorem checkFixedPair_cases (p : Params) (fin m n : Nat) :
    (checkFixedPair p fin m n = .mnRange ∧
      ¬ (p.mMin ≤ m ∧ m ≤ p.mMax ∧ p.nMin ≤ n ∧ n ≤ p.nMax)) ∨
    (checkFixedPair p fin m n = .ok ∧ (p.mMin ≤ m ∧ m ≤ p.mMax ∧ p.nMin ≤ n ∧ n ≤ p.nMax) ∧
      p.fccoMin * n ≤ 2 * fin * m ∧ 2 * fin * m ≤ p.fccoMax * n) ∨
    (checkFixedPair p fin m n = .fccoRange ∧
      (p.mMin ≤ m ∧ m ≤ p.mMax ∧ p.nMin ≤ n ∧ n ≤ p.nMax) ∧
      ¬ (p.fccoMin * n ≤ 2 * fin * m ∧ 2 * fin * m ≤ p.fccoMax * n)) := by
  unfold checkFixedPair
  split
  · exact .inl ⟨rfl, ‹_›⟩
  · rename_i hr
    split
    · exact .inr (.inl ⟨rfl, Decidable.not_not.mp hr, fccoInRange_iff.mp ‹_›⟩)
    · exact .inr (.inr ⟨rfl, Decidable.not_not.mp hr, fun h => ‹¬ _› (fccoInRange_iff.mpr h)⟩)

end Sys2Proof.Machine
end

