-- ==== Sys2Proof/Laws/State.lean ====
section
/-! SUPPORT. One lemma per field per shared update, so that no proof unfolds a record update. -/

namespace Sys2Proof.Machine

/-! ### `emit` -/

@[simp] theorem emit_params (e : PortEvent) (s : State) : (emit e s).params = s.params := rfl
@[simp] theorem emit_busy (e : PortEvent) (s : State) : (emit e s).busy = s.busy := rfl
@[simp] theorem emit_initDone (e : PortEvent) (s : State) : (emit e s).initDone = s.initDone := rfl
@[simp] theorem emit_halted (e : PortEvent) (s : State) : (emit e s).halted = s.halted := rfl
@[simp] theorem emit_synOk (e : PortEvent) (s : State) : (emit e s).synOk = s.synOk := rfl
@[simp] theorem emit_seqState (e : PortEvent) (s : State) : (emit e s).seqState = s.seqState := rfl
@[simp] theorem emit_fault (e : PortEvent) (s : State) : (emit e s).fault = s.fault := rfl
@[simp] theorem emit_cerr (e : PortEvent) (s : State) : (emit e s).cerr = s.cerr := rfl
@[simp] theorem emit_ustep (e : PortEvent) (s : State) : (emit e s).ustep = s.ustep := rfl
@[simp] theorem emit_fatalO (e : PortEvent) (s : State) : (emit e s).fatalO = s.fatalO := rfl
@[simp] theorem emit_rateOut (e : PortEvent) (s : State) : (emit e s).rateOut = s.rateOut := rfl
@[simp] theorem emit_pllResult (e : PortEvent) (s : State) : (emit e s).pllResult = s.pllResult := rfl
@[simp] theorem emit_oscEnabled (e : PortEvent) (s : State) : (emit e s).oscEnabled = s.oscEnabled := rfl
@[simp] theorem emit_oscStable (e : PortEvent) (s : State) : (emit e s).oscStable = s.oscStable := rfl
@[simp] theorem emit_synResult (e : PortEvent) (s : State) : (emit e s).synResult = s.synResult := rfl
@[simp] theorem emit_synFcco (e : PortEvent) (s : State) : (emit e s).synFcco = s.synFcco := rfl
@[simp] theorem emit_oscFreq (e : PortEvent) (s : State) : (emit e s).oscFreq = s.oscFreq := rfl
@[simp] theorem emit_oscEn (e : PortEvent) (s : State) : (emit e s).oscEn = s.oscEn := rfl
@[simp] theorem emit_clkSrc (e : PortEvent) (s : State) : (emit e s).clkSrc = s.clkSrc := rfl
@[simp] theorem emit_pllMode (e : PortEvent) (s : State) : (emit e s).pllMode = s.pllMode := rfl
@[simp] theorem emit_desiredFreq (e : PortEvent) (s : State) : (emit e s).desiredFreq = s.desiredFreq := rfl
@[simp] theorem emit_fixedMN (e : PortEvent) (s : State) : (emit e s).fixedMN = s.fixedMN := rfl
@[simp] theorem emit_cpuDiv (e : PortEvent) (s : State) : (emit e s).cpuDiv = s.cpuDiv := rfl
@[simp] theorem emit_usbEn (e : PortEvent) (s : State) : (emit e s).usbEn = s.usbEn := rfl
@[simp] theorem emit_usbDiv (e : PortEvent) (s : State) : (emit e s).usbDiv = s.usbDiv := rfl
@[simp] theorem emit_pbusDiv (e : PortEvent) (s : State) : (emit e s).pbusDiv = s.pbusDiv := rfl
@[simp] theorem emit_synFin (e : PortEvent) (s : State) : (emit e s).synFin = s.synFin := rfl
@[simp] theorem emit_synFout (e : PortEvent) (s : State) : (emit e s).synFout = s.synFout := rfl
@[simp] theorem emit_synMN (e : PortEvent) (s : State) : (emit e s).synMN = s.synMN := rfl
@[simp] theorem emit_rate (e : PortEvent) (s : State) : (emit e s).rate = s.rate := rfl
@[simp] theorem emit_curK (e : PortEvent) (s : State) : (emit e s).curK = s.curK := rfl
@[simp] theorem emit_curN (e : PortEvent) (s : State) : (emit e s).curN = s.curN := rfl
@[simp] theorem emit_feedRet (e : PortEvent) (s : State) : (emit e s).feedRet = s.feedRet := rfl
@[simp] theorem emit_en0 (e : PortEvent) (s : State) : (emit e s).en0 = s.en0 := rfl
@[simp] theorem emit_conn0 (e : PortEvent) (s : State) : (emit e s).conn0 = s.conn0 := rfl
@[simp] theorem emit_trace (e : PortEvent) (s : State) : (emit e s).trace = s.trace ++ [e] := rfl
@[simp] theorem emit_env (e : PortEvent) (s : State) : (emit e s).env = s.env := rfl

/-! ### `goto` -/

@[simp] theorem goto_params (u : BitVec 6) (s : State) : (goto u s).params = s.params := rfl
@[simp] theorem goto_busy (u : BitVec 6) (s : State) : (goto u s).busy = s.busy := rfl
@[simp] theorem goto_initDone (u : BitVec 6) (s : State) : (goto u s).initDone = s.initDone := rfl
@[simp] theorem goto_halted (u : BitVec 6) (s : State) : (goto u s).halted = s.halted := rfl
@[simp] theorem goto_synOk (u : BitVec 6) (s : State) : (goto u s).synOk = s.synOk := rfl
@[simp] theorem goto_seqState (u : BitVec 6) (s : State) : (goto u s).seqState = s.seqState := rfl
@[simp] theorem goto_fault (u : BitVec 6) (s : State) : (goto u s).fault = s.fault := rfl
@[simp] theorem goto_cerr (u : BitVec 6) (s : State) : (goto u s).cerr = s.cerr := rfl
@[simp] theorem goto_ustep (u : BitVec 6) (s : State) : (goto u s).ustep = u := rfl
@[simp] theorem goto_fatalO (u : BitVec 6) (s : State) : (goto u s).fatalO = s.fatalO := rfl
@[simp] theorem goto_rateOut (u : BitVec 6) (s : State) : (goto u s).rateOut = s.rateOut := rfl
@[simp] theorem goto_pllResult (u : BitVec 6) (s : State) : (goto u s).pllResult = s.pllResult := rfl
@[simp] theorem goto_oscEnabled (u : BitVec 6) (s : State) : (goto u s).oscEnabled = s.oscEnabled := rfl
@[simp] theorem goto_oscStable (u : BitVec 6) (s : State) : (goto u s).oscStable = s.oscStable := rfl
@[simp] theorem goto_synResult (u : BitVec 6) (s : State) : (goto u s).synResult = s.synResult := rfl
@[simp] theorem goto_synFcco (u : BitVec 6) (s : State) : (goto u s).synFcco = s.synFcco := rfl
@[simp] theorem goto_oscFreq (u : BitVec 6) (s : State) : (goto u s).oscFreq = s.oscFreq := rfl
@[simp] theorem goto_oscEn (u : BitVec 6) (s : State) : (goto u s).oscEn = s.oscEn := rfl
@[simp] theorem goto_clkSrc (u : BitVec 6) (s : State) : (goto u s).clkSrc = s.clkSrc := rfl
@[simp] theorem goto_pllMode (u : BitVec 6) (s : State) : (goto u s).pllMode = s.pllMode := rfl
@[simp] theorem goto_desiredFreq (u : BitVec 6) (s : State) : (goto u s).desiredFreq = s.desiredFreq := rfl
@[simp] theorem goto_fixedMN (u : BitVec 6) (s : State) : (goto u s).fixedMN = s.fixedMN := rfl
@[simp] theorem goto_cpuDiv (u : BitVec 6) (s : State) : (goto u s).cpuDiv = s.cpuDiv := rfl
@[simp] theorem goto_usbEn (u : BitVec 6) (s : State) : (goto u s).usbEn = s.usbEn := rfl
@[simp] theorem goto_usbDiv (u : BitVec 6) (s : State) : (goto u s).usbDiv = s.usbDiv := rfl
@[simp] theorem goto_pbusDiv (u : BitVec 6) (s : State) : (goto u s).pbusDiv = s.pbusDiv := rfl
@[simp] theorem goto_synFin (u : BitVec 6) (s : State) : (goto u s).synFin = s.synFin := rfl
@[simp] theorem goto_synFout (u : BitVec 6) (s : State) : (goto u s).synFout = s.synFout := rfl
@[simp] theorem goto_synMN (u : BitVec 6) (s : State) : (goto u s).synMN = s.synMN := rfl
@[simp] theorem goto_rate (u : BitVec 6) (s : State) : (goto u s).rate = s.rate := rfl
@[simp] theorem goto_curK (u : BitVec 6) (s : State) : (goto u s).curK = s.curK := rfl
@[simp] theorem goto_curN (u : BitVec 6) (s : State) : (goto u s).curN = s.curN := rfl
@[simp] theorem goto_feedRet (u : BitVec 6) (s : State) : (goto u s).feedRet = s.feedRet := rfl
@[simp] theorem goto_en0 (u : BitVec 6) (s : State) : (goto u s).en0 = s.en0 := rfl
@[simp] theorem goto_conn0 (u : BitVec 6) (s : State) : (goto u s).conn0 = s.conn0 := rfl
@[simp] theorem goto_trace (u : BitVec 6) (s : State) : (goto u s).trace = s.trace := rfl
@[simp] theorem goto_env (u : BitVec 6) (s : State) : (goto u s).env = s.env := rfl

/-! ### `enterFeed` -/

@[simp] theorem enterFeed_params (u : BitVec 6) (s : State) : (enterFeed u s).params = s.params := rfl
@[simp] theorem enterFeed_busy (u : BitVec 6) (s : State) : (enterFeed u s).busy = s.busy := rfl
@[simp] theorem enterFeed_initDone (u : BitVec 6) (s : State) : (enterFeed u s).initDone = s.initDone := rfl
@[simp] theorem enterFeed_halted (u : BitVec 6) (s : State) : (enterFeed u s).halted = s.halted := rfl
@[simp] theorem enterFeed_synOk (u : BitVec 6) (s : State) : (enterFeed u s).synOk = s.synOk := rfl
@[simp] theorem enterFeed_seqState (u : BitVec 6) (s : State) : (enterFeed u s).seqState = s.seqState := rfl
@[simp] theorem enterFeed_fault (u : BitVec 6) (s : State) : (enterFeed u s).fault = s.fault := rfl
@[simp] theorem enterFeed_cerr (u : BitVec 6) (s : State) : (enterFeed u s).cerr = s.cerr := rfl
@[simp] theorem enterFeed_ustep (u : BitVec 6) (s : State) : (enterFeed u s).ustep = Ucode.feedAa := rfl
@[simp] theorem enterFeed_fatalO (u : BitVec 6) (s : State) : (enterFeed u s).fatalO = s.fatalO := rfl
@[simp] theorem enterFeed_rateOut (u : BitVec 6) (s : State) : (enterFeed u s).rateOut = s.rateOut := rfl
@[simp] theorem enterFeed_pllResult (u : BitVec 6) (s : State) : (enterFeed u s).pllResult = s.pllResult := rfl
@[simp] theorem enterFeed_oscEnabled (u : BitVec 6) (s : State) : (enterFeed u s).oscEnabled = s.oscEnabled := rfl
@[simp] theorem enterFeed_oscStable (u : BitVec 6) (s : State) : (enterFeed u s).oscStable = s.oscStable := rfl
@[simp] theorem enterFeed_synResult (u : BitVec 6) (s : State) : (enterFeed u s).synResult = s.synResult := rfl
@[simp] theorem enterFeed_synFcco (u : BitVec 6) (s : State) : (enterFeed u s).synFcco = s.synFcco := rfl
@[simp] theorem enterFeed_oscFreq (u : BitVec 6) (s : State) : (enterFeed u s).oscFreq = s.oscFreq := rfl
@[simp] theorem enterFeed_oscEn (u : BitVec 6) (s : State) : (enterFeed u s).oscEn = s.oscEn := rfl
@[simp] theorem enterFeed_clkSrc (u : BitVec 6) (s : State) : (enterFeed u s).clkSrc = s.clkSrc := rfl
@[simp] theorem enterFeed_pllMode (u : BitVec 6) (s : State) : (enterFeed u s).pllMode = s.pllMode := rfl
@[simp] theorem enterFeed_desiredFreq (u : BitVec 6) (s : State) : (enterFeed u s).desiredFreq = s.desiredFreq := rfl
@[simp] theorem enterFeed_fixedMN (u : BitVec 6) (s : State) : (enterFeed u s).fixedMN = s.fixedMN := rfl
@[simp] theorem enterFeed_cpuDiv (u : BitVec 6) (s : State) : (enterFeed u s).cpuDiv = s.cpuDiv := rfl
@[simp] theorem enterFeed_usbEn (u : BitVec 6) (s : State) : (enterFeed u s).usbEn = s.usbEn := rfl
@[simp] theorem enterFeed_usbDiv (u : BitVec 6) (s : State) : (enterFeed u s).usbDiv = s.usbDiv := rfl
@[simp] theorem enterFeed_pbusDiv (u : BitVec 6) (s : State) : (enterFeed u s).pbusDiv = s.pbusDiv := rfl
@[simp] theorem enterFeed_synFin (u : BitVec 6) (s : State) : (enterFeed u s).synFin = s.synFin := rfl
@[simp] theorem enterFeed_synFout (u : BitVec 6) (s : State) : (enterFeed u s).synFout = s.synFout := rfl
@[simp] theorem enterFeed_synMN (u : BitVec 6) (s : State) : (enterFeed u s).synMN = s.synMN := rfl
@[simp] theorem enterFeed_rate (u : BitVec 6) (s : State) : (enterFeed u s).rate = s.rate := rfl
@[simp] theorem enterFeed_curK (u : BitVec 6) (s : State) : (enterFeed u s).curK = s.curK := rfl
@[simp] theorem enterFeed_curN (u : BitVec 6) (s : State) : (enterFeed u s).curN = s.curN := rfl
@[simp] theorem enterFeed_feedRet (u : BitVec 6) (s : State) : (enterFeed u s).feedRet = u := rfl
@[simp] theorem enterFeed_en0 (u : BitVec 6) (s : State) : (enterFeed u s).en0 = s.en0 := rfl
@[simp] theorem enterFeed_conn0 (u : BitVec 6) (s : State) : (enterFeed u s).conn0 = s.conn0 := rfl
@[simp] theorem enterFeed_trace (u : BitVec 6) (s : State) : (enterFeed u s).trace = s.trace := rfl
@[simp] theorem enterFeed_env (u : BitVec 6) (s : State) : (enterFeed u s).env = s.env := rfl

/-! ### `enterDividers` -/

@[simp] theorem enterDividers_params (s : State) : (enterDividers s).params = s.params := rfl
@[simp] theorem enterDividers_busy (s : State) : (enterDividers s).busy = s.busy := rfl
@[simp] theorem enterDividers_initDone (s : State) : (enterDividers s).initDone = s.initDone := rfl
@[simp] theorem enterDividers_halted (s : State) : (enterDividers s).halted = s.halted := rfl
@[simp] theorem enterDividers_synOk (s : State) : (enterDividers s).synOk = s.synOk := rfl
@[simp] theorem enterDividers_seqState (s : State) : (enterDividers s).seqState = s.seqState := rfl
@[simp] theorem enterDividers_fault (s : State) : (enterDividers s).fault = s.fault := rfl
@[simp] theorem enterDividers_cerr (s : State) : (enterDividers s).cerr = s.cerr := rfl
@[simp] theorem enterDividers_ustep (s : State) : (enterDividers s).ustep = if s.usbEn = true then Ucode.usbDiv else Ucode.pbusDiv := rfl
@[simp] theorem enterDividers_fatalO (s : State) : (enterDividers s).fatalO = s.fatalO := rfl
@[simp] theorem enterDividers_rateOut (s : State) : (enterDividers s).rateOut = s.rateOut := rfl
@[simp] theorem enterDividers_pllResult (s : State) : (enterDividers s).pllResult = s.pllResult := rfl
@[simp] theorem enterDividers_oscEnabled (s : State) : (enterDividers s).oscEnabled = s.oscEnabled := rfl
@[simp] theorem enterDividers_oscStable (s : State) : (enterDividers s).oscStable = s.oscStable := rfl
@[simp] theorem enterDividers_synResult (s : State) : (enterDividers s).synResult = s.synResult := rfl
@[simp] theorem enterDividers_synFcco (s : State) : (enterDividers s).synFcco = s.synFcco := rfl
@[simp] theorem enterDividers_oscFreq (s : State) : (enterDividers s).oscFreq = s.oscFreq := rfl
@[simp] theorem enterDividers_oscEn (s : State) : (enterDividers s).oscEn = s.oscEn := rfl
@[simp] theorem enterDividers_clkSrc (s : State) : (enterDividers s).clkSrc = s.clkSrc := rfl
@[simp] theorem enterDividers_pllMode (s : State) : (enterDividers s).pllMode = s.pllMode := rfl
@[simp] theorem enterDividers_desiredFreq (s : State) : (enterDividers s).desiredFreq = s.desiredFreq := rfl
@[simp] theorem enterDividers_fixedMN (s : State) : (enterDividers s).fixedMN = s.fixedMN := rfl
@[simp] theorem enterDividers_cpuDiv (s : State) : (enterDividers s).cpuDiv = s.cpuDiv := rfl
@[simp] theorem enterDividers_usbEn (s : State) : (enterDividers s).usbEn = s.usbEn := rfl
@[simp] theorem enterDividers_usbDiv (s : State) : (enterDividers s).usbDiv = s.usbDiv := rfl
@[simp] theorem enterDividers_pbusDiv (s : State) : (enterDividers s).pbusDiv = s.pbusDiv := rfl
@[simp] theorem enterDividers_synFin (s : State) : (enterDividers s).synFin = s.synFin := rfl
@[simp] theorem enterDividers_synFout (s : State) : (enterDividers s).synFout = s.synFout := rfl
@[simp] theorem enterDividers_synMN (s : State) : (enterDividers s).synMN = s.synMN := rfl
@[simp] theorem enterDividers_rate (s : State) : (enterDividers s).rate = s.rate := rfl
@[simp] theorem enterDividers_curK (s : State) : (enterDividers s).curK = s.curK := rfl
@[simp] theorem enterDividers_curN (s : State) : (enterDividers s).curN = 0 := rfl
@[simp] theorem enterDividers_feedRet (s : State) : (enterDividers s).feedRet = s.feedRet := rfl
@[simp] theorem enterDividers_en0 (s : State) : (enterDividers s).en0 = s.en0 := rfl
@[simp] theorem enterDividers_conn0 (s : State) : (enterDividers s).conn0 = s.conn0 := rfl
@[simp] theorem enterDividers_trace (s : State) : (enterDividers s).trace = s.trace := rfl
@[simp] theorem enterDividers_env (s : State) : (enterDividers s).env = s.env := rfl

/-! ### `raiseFatal` -/

@[simp] theorem raiseFatal_params (c : FaultCode) (s : State) : (raiseFatal c s).params = s.params := rfl
@[simp] theorem raiseFatal_busy (c : FaultCode) (s : State) : (raiseFatal c s).busy = false := rfl
@[simp] theorem raiseFatal_initDone (c : FaultCode) (s : State) : (raiseFatal c s).initDone = s.initDone := rfl
@[simp] theorem raiseFatal_halted (c : FaultCode) (s : State) : (raiseFatal c s).halted = true := rfl
@[simp] theorem raiseFatal_synOk (c : FaultCode) (s : State) : (raiseFatal c s).synOk = s.synOk := rfl
@[simp] theorem raiseFatal_seqState (c : FaultCode) (s : State) : (raiseFatal c s).seqState = s.seqState := rfl
@[simp] theorem raiseFatal_fault (c : FaultCode) (s : State) : (raiseFatal c s).fault = c := rfl
@[simp] theorem raiseFatal_cerr (c : FaultCode) (s : State) : (raiseFatal c s).cerr = s.cerr := rfl
@[simp] theorem raiseFatal_ustep (c : FaultCode) (s : State) : (raiseFatal c s).ustep = s.ustep := rfl
@[simp] theorem raiseFatal_fatalO (c : FaultCode) (s : State) : (raiseFatal c s).fatalO = true := rfl
@[simp] theorem raiseFatal_rateOut (c : FaultCode) (s : State) : (raiseFatal c s).rateOut = s.rateOut := rfl
@[simp] theorem raiseFatal_pllResult (c : FaultCode) (s : State) : (raiseFatal c s).pllResult = s.pllResult := rfl
@[simp] theorem raiseFatal_oscEnabled (c : FaultCode) (s : State) : (raiseFatal c s).oscEnabled = s.oscEnabled := rfl
@[simp] theorem raiseFatal_oscStable (c : FaultCode) (s : State) : (raiseFatal c s).oscStable = s.oscStable := rfl
@[simp] theorem raiseFatal_synResult (c : FaultCode) (s : State) : (raiseFatal c s).synResult = s.synResult := rfl
@[simp] theorem raiseFatal_synFcco (c : FaultCode) (s : State) : (raiseFatal c s).synFcco = s.synFcco := rfl
@[simp] theorem raiseFatal_oscFreq (c : FaultCode) (s : State) : (raiseFatal c s).oscFreq = s.oscFreq := rfl
@[simp] theorem raiseFatal_oscEn (c : FaultCode) (s : State) : (raiseFatal c s).oscEn = s.oscEn := rfl
@[simp] theorem raiseFatal_clkSrc (c : FaultCode) (s : State) : (raiseFatal c s).clkSrc = s.clkSrc := rfl
@[simp] theorem raiseFatal_pllMode (c : FaultCode) (s : State) : (raiseFatal c s).pllMode = s.pllMode := rfl
@[simp] theorem raiseFatal_desiredFreq (c : FaultCode) (s : State) : (raiseFatal c s).desiredFreq = s.desiredFreq := rfl
@[simp] theorem raiseFatal_fixedMN (c : FaultCode) (s : State) : (raiseFatal c s).fixedMN = s.fixedMN := rfl
@[simp] theorem raiseFatal_cpuDiv (c : FaultCode) (s : State) : (raiseFatal c s).cpuDiv = s.cpuDiv := rfl
@[simp] theorem raiseFatal_usbEn (c : FaultCode) (s : State) : (raiseFatal c s).usbEn = s.usbEn := rfl
@[simp] theorem raiseFatal_usbDiv (c : FaultCode) (s : State) : (raiseFatal c s).usbDiv = s.usbDiv := rfl
@[simp] theorem raiseFatal_pbusDiv (c : FaultCode) (s : State) : (raiseFatal c s).pbusDiv = s.pbusDiv := rfl
@[simp] theorem raiseFatal_synFin (c : FaultCode) (s : State) : (raiseFatal c s).synFin = s.synFin := rfl
@[simp] theorem raiseFatal_synFout (c : FaultCode) (s : State) : (raiseFatal c s).synFout = s.synFout := rfl
@[simp] theorem raiseFatal_synMN (c : FaultCode) (s : State) : (raiseFatal c s).synMN = s.synMN := rfl
@[simp] theorem raiseFatal_rate (c : FaultCode) (s : State) : (raiseFatal c s).rate = s.rate := rfl
@[simp] theorem raiseFatal_curK (c : FaultCode) (s : State) : (raiseFatal c s).curK = s.curK := rfl
@[simp] theorem raiseFatal_curN (c : FaultCode) (s : State) : (raiseFatal c s).curN = s.curN := rfl
@[simp] theorem raiseFatal_feedRet (c : FaultCode) (s : State) : (raiseFatal c s).feedRet = s.feedRet := rfl
@[simp] theorem raiseFatal_en0 (c : FaultCode) (s : State) : (raiseFatal c s).en0 = s.en0 := rfl
@[simp] theorem raiseFatal_conn0 (c : FaultCode) (s : State) : (raiseFatal c s).conn0 = s.conn0 := rfl
@[simp] theorem raiseFatal_trace (c : FaultCode) (s : State) : (raiseFatal c s).trace = s.trace := rfl
@[simp] theorem raiseFatal_env (c : FaultCode) (s : State) : (raiseFatal c s).env = s.env := rfl

/-! ### `reject` -/

@[simp] theorem reject_params (c : CmdError) (s : State) : (reject c s).params = s.params := rfl
@[simp] theorem reject_busy (c : CmdError) (s : State) : (reject c s).busy = s.busy := rfl
@[simp] theorem reject_initDone (c : CmdError) (s : State) : (reject c s).initDone = s.initDone := rfl
@[simp] theorem reject_halted (c : CmdError) (s : State) : (reject c s).halted = s.halted := rfl
@[simp] theorem reject_synOk (c : CmdError) (s : State) : (reject c s).synOk = s.synOk := rfl
@[simp] theorem reject_seqState (c : CmdError) (s : State) : (reject c s).seqState = s.seqState := rfl
@[simp] theorem reject_fault (c : CmdError) (s : State) : (reject c s).fault = s.fault := rfl
@[simp] theorem reject_cerr (c : CmdError) (s : State) : (reject c s).cerr = c := rfl
@[simp] theorem reject_ustep (c : CmdError) (s : State) : (reject c s).ustep = s.ustep := rfl
@[simp] theorem reject_fatalO (c : CmdError) (s : State) : (reject c s).fatalO = s.fatalO := rfl
@[simp] theorem reject_rateOut (c : CmdError) (s : State) : (reject c s).rateOut = s.rateOut := rfl
@[simp] theorem reject_pllResult (c : CmdError) (s : State) : (reject c s).pllResult = s.pllResult := rfl
@[simp] theorem reject_oscEnabled (c : CmdError) (s : State) : (reject c s).oscEnabled = s.oscEnabled := rfl
@[simp] theorem reject_oscStable (c : CmdError) (s : State) : (reject c s).oscStable = s.oscStable := rfl
@[simp] theorem reject_synResult (c : CmdError) (s : State) : (reject c s).synResult = s.synResult := rfl
@[simp] theorem reject_synFcco (c : CmdError) (s : State) : (reject c s).synFcco = s.synFcco := rfl
@[simp] theorem reject_oscFreq (c : CmdError) (s : State) : (reject c s).oscFreq = s.oscFreq := rfl
@[simp] theorem reject_oscEn (c : CmdError) (s : State) : (reject c s).oscEn = s.oscEn := rfl
@[simp] theorem reject_clkSrc (c : CmdError) (s : State) : (reject c s).clkSrc = s.clkSrc := rfl
@[simp] theorem reject_pllMode (c : CmdError) (s : State) : (reject c s).pllMode = s.pllMode := rfl
@[simp] theorem reject_desiredFreq (c : CmdError) (s : State) : (reject c s).desiredFreq = s.desiredFreq := rfl
@[simp] theorem reject_fixedMN (c : CmdError) (s : State) : (reject c s).fixedMN = s.fixedMN := rfl
@[simp] theorem reject_cpuDiv (c : CmdError) (s : State) : (reject c s).cpuDiv = s.cpuDiv := rfl
@[simp] theorem reject_usbEn (c : CmdError) (s : State) : (reject c s).usbEn = s.usbEn := rfl
@[simp] theorem reject_usbDiv (c : CmdError) (s : State) : (reject c s).usbDiv = s.usbDiv := rfl
@[simp] theorem reject_pbusDiv (c : CmdError) (s : State) : (reject c s).pbusDiv = s.pbusDiv := rfl
@[simp] theorem reject_synFin (c : CmdError) (s : State) : (reject c s).synFin = s.synFin := rfl
@[simp] theorem reject_synFout (c : CmdError) (s : State) : (reject c s).synFout = s.synFout := rfl
@[simp] theorem reject_synMN (c : CmdError) (s : State) : (reject c s).synMN = s.synMN := rfl
@[simp] theorem reject_rate (c : CmdError) (s : State) : (reject c s).rate = s.rate := rfl
@[simp] theorem reject_curK (c : CmdError) (s : State) : (reject c s).curK = s.curK := rfl
@[simp] theorem reject_curN (c : CmdError) (s : State) : (reject c s).curN = s.curN := rfl
@[simp] theorem reject_feedRet (c : CmdError) (s : State) : (reject c s).feedRet = s.feedRet := rfl
@[simp] theorem reject_en0 (c : CmdError) (s : State) : (reject c s).en0 = s.en0 := rfl
@[simp] theorem reject_conn0 (c : CmdError) (s : State) : (reject c s).conn0 = s.conn0 := rfl
@[simp] theorem reject_trace (c : CmdError) (s : State) : (reject c s).trace = s.trace := rfl
@[simp] theorem reject_env (c : CmdError) (s : State) : (reject c s).env = s.env := rfl

/-! ### `afterPstat` -/

@[simp] theorem afterPstat_params (s : State) : (afterPstat s).params = s.params := rfl
@[simp] theorem afterPstat_busy (s : State) : (afterPstat s).busy = s.busy := rfl
@[simp] theorem afterPstat_initDone (s : State) : (afterPstat s).initDone = s.initDone := rfl
@[simp] theorem afterPstat_halted (s : State) : (afterPstat s).halted = s.halted := rfl
@[simp] theorem afterPstat_synOk (s : State) : (afterPstat s).synOk = s.synOk := rfl
@[simp] theorem afterPstat_seqState (s : State) : (afterPstat s).seqState = s.seqState := rfl
@[simp] theorem afterPstat_fault (s : State) : (afterPstat s).fault = s.fault := rfl
@[simp] theorem afterPstat_cerr (s : State) : (afterPstat s).cerr = s.cerr := rfl
@[simp] theorem afterPstat_ustep (s : State) : (afterPstat s).ustep = s.ustep := rfl
@[simp] theorem afterPstat_fatalO (s : State) : (afterPstat s).fatalO = s.fatalO := rfl
@[simp] theorem afterPstat_rateOut (s : State) : (afterPstat s).rateOut = s.rateOut := rfl
@[simp] theorem afterPstat_pllResult (s : State) : (afterPstat s).pllResult = s.pllResult := rfl
@[simp] theorem afterPstat_oscEnabled (s : State) : (afterPstat s).oscEnabled = s.oscEnabled := rfl
@[simp] theorem afterPstat_oscStable (s : State) : (afterPstat s).oscStable = s.oscStable := rfl
@[simp] theorem afterPstat_synResult (s : State) : (afterPstat s).synResult = s.synResult := rfl
@[simp] theorem afterPstat_synFcco (s : State) : (afterPstat s).synFcco = s.synFcco := rfl
@[simp] theorem afterPstat_oscFreq (s : State) : (afterPstat s).oscFreq = s.oscFreq := rfl
@[simp] theorem afterPstat_oscEn (s : State) : (afterPstat s).oscEn = s.oscEn := rfl
@[simp] theorem afterPstat_clkSrc (s : State) : (afterPstat s).clkSrc = s.clkSrc := rfl
@[simp] theorem afterPstat_pllMode (s : State) : (afterPstat s).pllMode = s.pllMode := rfl
@[simp] theorem afterPstat_desiredFreq (s : State) : (afterPstat s).desiredFreq = s.desiredFreq := rfl
@[simp] theorem afterPstat_fixedMN (s : State) : (afterPstat s).fixedMN = s.fixedMN := rfl
@[simp] theorem afterPstat_cpuDiv (s : State) : (afterPstat s).cpuDiv = s.cpuDiv := rfl
@[simp] theorem afterPstat_usbEn (s : State) : (afterPstat s).usbEn = s.usbEn := rfl
@[simp] theorem afterPstat_usbDiv (s : State) : (afterPstat s).usbDiv = s.usbDiv := rfl
@[simp] theorem afterPstat_pbusDiv (s : State) : (afterPstat s).pbusDiv = s.pbusDiv := rfl
@[simp] theorem afterPstat_synFin (s : State) : (afterPstat s).synFin = s.synFin := rfl
@[simp] theorem afterPstat_synFout (s : State) : (afterPstat s).synFout = s.synFout := rfl
@[simp] theorem afterPstat_synMN (s : State) : (afterPstat s).synMN = s.synMN := rfl
@[simp] theorem afterPstat_rate (s : State) : (afterPstat s).rate = s.rate := rfl
@[simp] theorem afterPstat_curK (s : State) : (afterPstat s).curK = s.curK := rfl
@[simp] theorem afterPstat_curN (s : State) : (afterPstat s).curN = s.curN := rfl
@[simp] theorem afterPstat_feedRet (s : State) : (afterPstat s).feedRet = s.feedRet := rfl
@[simp] theorem afterPstat_en0 (s : State) : (afterPstat s).en0 = s.en0 := rfl
@[simp] theorem afterPstat_conn0 (s : State) : (afterPstat s).conn0 = s.conn0 := rfl
@[simp] theorem afterPstat_trace (s : State) : (afterPstat s).trace = s.trace ++ [.pstat (pstatAnswer s)] := rfl
@[simp] theorem afterPstat_env (s : State) : (afterPstat s).env = (drawPstat s.env).2 := rfl

/-! ### `afterOscStat` -/

@[simp] theorem afterOscStat_params (k : BitVec 2) (s : State) : (afterOscStat k s).params = s.params := rfl
@[simp] theorem afterOscStat_busy (k : BitVec 2) (s : State) : (afterOscStat k s).busy = s.busy := rfl
@[simp] theorem afterOscStat_initDone (k : BitVec 2) (s : State) : (afterOscStat k s).initDone = s.initDone := rfl
@[simp] theorem afterOscStat_halted (k : BitVec 2) (s : State) : (afterOscStat k s).halted = s.halted := rfl
@[simp] theorem afterOscStat_synOk (k : BitVec 2) (s : State) : (afterOscStat k s).synOk = s.synOk := rfl
@[simp] theorem afterOscStat_seqState (k : BitVec 2) (s : State) : (afterOscStat k s).seqState = s.seqState := rfl
@[simp] theorem afterOscStat_fault (k : BitVec 2) (s : State) : (afterOscStat k s).fault = s.fault := rfl
@[simp] theorem afterOscStat_cerr (k : BitVec 2) (s : State) : (afterOscStat k s).cerr = s.cerr := rfl
@[simp] theorem afterOscStat_ustep (k : BitVec 2) (s : State) : (afterOscStat k s).ustep = s.ustep := rfl
@[simp] theorem afterOscStat_fatalO (k : BitVec 2) (s : State) : (afterOscStat k s).fatalO = s.fatalO := rfl
@[simp] theorem afterOscStat_rateOut (k : BitVec 2) (s : State) : (afterOscStat k s).rateOut = s.rateOut := rfl
@[simp] theorem afterOscStat_pllResult (k : BitVec 2) (s : State) : (afterOscStat k s).pllResult = s.pllResult := rfl
@[simp] theorem afterOscStat_oscEnabled (k : BitVec 2) (s : State) : (afterOscStat k s).oscEnabled = s.oscEnabled := rfl
@[simp] theorem afterOscStat_oscStable (k : BitVec 2) (s : State) : (afterOscStat k s).oscStable = s.oscStable := rfl
@[simp] theorem afterOscStat_synResult (k : BitVec 2) (s : State) : (afterOscStat k s).synResult = s.synResult := rfl
@[simp] theorem afterOscStat_synFcco (k : BitVec 2) (s : State) : (afterOscStat k s).synFcco = s.synFcco := rfl
@[simp] theorem afterOscStat_oscFreq (k : BitVec 2) (s : State) : (afterOscStat k s).oscFreq = s.oscFreq := rfl
@[simp] theorem afterOscStat_oscEn (k : BitVec 2) (s : State) : (afterOscStat k s).oscEn = s.oscEn := rfl
@[simp] theorem afterOscStat_clkSrc (k : BitVec 2) (s : State) : (afterOscStat k s).clkSrc = s.clkSrc := rfl
@[simp] theorem afterOscStat_pllMode (k : BitVec 2) (s : State) : (afterOscStat k s).pllMode = s.pllMode := rfl
@[simp] theorem afterOscStat_desiredFreq (k : BitVec 2) (s : State) : (afterOscStat k s).desiredFreq = s.desiredFreq := rfl
@[simp] theorem afterOscStat_fixedMN (k : BitVec 2) (s : State) : (afterOscStat k s).fixedMN = s.fixedMN := rfl
@[simp] theorem afterOscStat_cpuDiv (k : BitVec 2) (s : State) : (afterOscStat k s).cpuDiv = s.cpuDiv := rfl
@[simp] theorem afterOscStat_usbEn (k : BitVec 2) (s : State) : (afterOscStat k s).usbEn = s.usbEn := rfl
@[simp] theorem afterOscStat_usbDiv (k : BitVec 2) (s : State) : (afterOscStat k s).usbDiv = s.usbDiv := rfl
@[simp] theorem afterOscStat_pbusDiv (k : BitVec 2) (s : State) : (afterOscStat k s).pbusDiv = s.pbusDiv := rfl
@[simp] theorem afterOscStat_synFin (k : BitVec 2) (s : State) : (afterOscStat k s).synFin = s.synFin := rfl
@[simp] theorem afterOscStat_synFout (k : BitVec 2) (s : State) : (afterOscStat k s).synFout = s.synFout := rfl
@[simp] theorem afterOscStat_synMN (k : BitVec 2) (s : State) : (afterOscStat k s).synMN = s.synMN := rfl
@[simp] theorem afterOscStat_rate (k : BitVec 2) (s : State) : (afterOscStat k s).rate = s.rate := rfl
@[simp] theorem afterOscStat_curK (k : BitVec 2) (s : State) : (afterOscStat k s).curK = s.curK := rfl
@[simp] theorem afterOscStat_curN (k : BitVec 2) (s : State) : (afterOscStat k s).curN = s.curN := rfl
@[simp] theorem afterOscStat_feedRet (k : BitVec 2) (s : State) : (afterOscStat k s).feedRet = s.feedRet := rfl
@[simp] theorem afterOscStat_en0 (k : BitVec 2) (s : State) : (afterOscStat k s).en0 = s.en0 := rfl
@[simp] theorem afterOscStat_conn0 (k : BitVec 2) (s : State) : (afterOscStat k s).conn0 = s.conn0 := rfl
@[simp] theorem afterOscStat_trace (k : BitVec 2) (s : State) : (afterOscStat k s).trace = s.trace ++ [.oscStat k (oscStatAnswer s)] := rfl
@[simp] theorem afterOscStat_env (k : BitVec 2) (s : State) : (afterOscStat k s).env = (drawOscStat s.env).2 := rfl

end Sys2Proof.Machine
end

