-- ==== Sys2Proof/Laws/Step.lean ====
section
/-! SUPPORT. What the shared operations and a step can do, each said once: the provers cite these
and need not unfold the operations. -/

namespace Sys2Proof.Machine

/-! ### Commands -/

theorem acceptCommand_halted {i r : Bool} {b : State → State} {s : State} (h : s.halted = true) :
    acceptCommand i r b s = reject .halted s := by simp [acceptCommand, h]

theorem acceptCommand_busy {i r : Bool} {b : State → State} {s : State} (h : s.halted = false)
    (hb : s.busy = true) : acceptCommand i r b s = reject .busy s := by simp [acceptCommand, h, hb]

theorem acceptCommand_illegal {r : Bool} {b : State → State} {s : State} (h : s.halted = false)
    (hb : s.busy = false) : acceptCommand true r b s = reject .illegal s := by
  simp [acceptCommand, h, hb]

theorem acceptCommand_reinit {b : State → State} {s : State} (h : s.halted = false)
    (hb : s.busy = false) : acceptCommand false true b s = reject .reinit s := by
  simp [acceptCommand, h, hb]

theorem acceptCommand_accepts {b : State → State} {s : State} (h : s.halted = false)
    (hb : s.busy = false) : acceptCommand false false b s = b { s with cerr := .none } := by
  simp [acceptCommand, h, hb]

/-- All that command acceptance can do (R125). -/
theorem acceptCommand_cases (i r : Bool) (b : State → State) (s : State) :
    (∃ c, acceptCommand i r b s = reject c s ∧
      ((c = .halted ∧ s.halted = true) ∨ (c = .busy ∧ s.halted = false ∧ s.busy = true) ∨
        (s.halted = false ∧ s.busy = false ∧ (i = true ∨ r = true)))) ∨
    (s.halted = false ∧ s.busy = false ∧ i = false ∧ r = false ∧
      acceptCommand i r b s = b { s with cerr := .none }) := by
  unfold acceptCommand
  cases s.halted <;> cases s.busy <;> cases i <;> cases r <;>
    first | (simp; done) | exact .inl ⟨_, rfl, by simp⟩

/-- All that a host write to a `CFG` register can do (R58). -/
theorem writeCfg_cases (r : Reg) (v : Word) (s : State) :
    (∃ c, writeCfg r v s = reject c s ∧
      ((c = .halted ∧ s.halted = true) ∨ (c = .busy ∧ s.halted = false ∧ s.busy = true) ∨
        (c = .locked ∧ s.halted = false ∧ s.busy = false ∧ s.initDone = true))) ∨
    (s.halted = false ∧ s.busy = false ∧ s.initDone = false ∧ writeCfg r v s = storeReg r v s) := by
  unfold writeCfg
  cases s.halted <;> cases s.busy <;> cases s.initDone <;> simp

/-- All that a host write to a `QRY` register can do (R58). -/
theorem writeQry_cases (r : Reg) (v : Word) (s : State) :
    (∃ c, writeQry r v s = reject c s ∧
      ((c = .halted ∧ s.halted = true) ∨ (c = .busy ∧ s.halted = false ∧ s.busy = true))) ∨
    (s.halted = false ∧ s.busy = false ∧ writeQry r v s = storeReg r v s) := by
  unfold writeQry
  cases s.halted <;> cases s.busy <;> simp

/-! ### Host accesses -/

/-- `CMD` stands at offset 0 and nowhere else (R26). -/
theorem regAt_cmd {np off : Nat} (h : regAt np off = some .cmd) : off = 0 := by
  unfold regAt at h
  split at h <;> first
    | rfl
    | (simp at h)

/-- `CMD` is the only write-only register (R25, R26). -/
theorem regClass_wo {r : Reg} (h : regClass r = .wo) : r = .cmd := by
  cases r <;> simp_all [regClass]

/-- What an access of the host can do to a state: nothing of SD2-CLK's, run the command it writes to
`CMD`, be refused as an illegal word, or write a `CFG` or a `QRY` register. -/
theorem hostAccess_cases {run : Instr → State → Result} {a : HostAccess} {s t : State}
    (h : hostAccess run a s = .next t) :
    (∃ e, t = { s with env := e }) ∨
    (∃ w, a = .write s.params.blockBase 4 w ∧ ∃ i, decodeCmd w = .ok i ∧ run i s = .next t) ∨
    (t = refuseIllegal s) ∨
    (∃ r v off, a = .write (s.params.blockBase + off) 4 v ∧
      regAt s.params.numPbus off = some r ∧ regClass r = .cfg ∧ t = writeCfg r v s) ∨
    (∃ r v off, a = .write (s.params.blockBase + off) 4 v ∧
      regAt s.params.numPbus off = some r ∧ regClass r = .qry ∧ t = writeQry r v s) := by
  cases a with
  | read addr size =>
    simp only [hostAccess] at h
    split at h
    · cases h
      exact .inl ⟨_, rfl⟩
    · unfold notAdmitted at h
      split at h <;> cases h
  | write addr size v =>
    simp only [hostAccess] at h
    split at h
    · rename_i had
      simp only [admitted, Bool.and_eq_true, beq_iff_eq, decide_eq_true_eq] at had
      have hoff : addr = s.params.blockBase + (addr - s.params.blockBase) := by omega
      have hsize : size = 4 := had.1.1.1
      subst hsize
      unfold windowWrite at h
      split at h
      · cases h
        exact .inl ⟨s.env, rfl⟩
      · rename_i r hr
        split at h
        · rename_i hc
          rw [regClass_wo hc] at hr
          have h0 := regAt_cmd hr
          have ha : addr = s.params.blockBase := by omega
          subst ha
          unfold hostCommand at h
          split at h
          · exact .inr (.inl ⟨v, rfl, _, ‹_›, h⟩)
          · cases h
            exact .inr (.inr (.inl rfl))
        · cases h
          exact .inr (.inr (.inr (.inl ⟨r, v, _, by rw [← hoff], hr, ‹_›, rfl⟩)))
        · cases h
          exact .inr (.inr (.inr (.inr ⟨r, v, _, by rw [← hoff], hr, ‹_›, rfl⟩)))
        · cases h
          exact .inl ⟨s.env, rfl⟩
    · unfold notAdmitted at h
      split at h <;> cases h

/-! ### Steps -/

/-- Taking a turn changes only what stands outside. -/
theorem popTurn_eq (s : State) : ∃ e, popTurn s = { s with env := e } ∧
    e.hostQueue = s.env.hostQueue := by
  unfold popTurn
  split
  · exact ⟨_, rfl, rfl⟩
  · exact ⟨_, rfl, rfl⟩

/-- All that a step can do. `e` is what stands outside once the turn, and the host's access, are
taken. -/
theorem step_cases {s t : State} (h : step s = .next t) :
    s.params.ok = true ∧
    ((nextTurn s = .reset ∧ ∃ e, t = { State.resetWith s.params with env := e }) ∨
      (nextTurn s ≠ .reset ∧ ∃ e, t = { s with env := e }) ∨
      (nextTurn s = .block ∧ s.busy = true ∧
        ∃ i e, decodeUstep s.ustep = .ok i ∧ exec i { s with env := e } = .next t) ∨
      (nextTurn s = .host ∧ ∃ w i e, s.env.hostQueue.head? = some (.write s.params.blockBase 4 w) ∧
        decodeCmd w = .ok i ∧ exec i { s with env := e } = .next t) ∨
      (nextTurn s = .host ∧ ∃ e, t = refuseIllegal { s with env := e }) ∨
      (nextTurn s = .host ∧ ∃ r v off e,
        s.env.hostQueue.head? = some (.write (s.params.blockBase + off) 4 v) ∧
        regAt s.params.numPbus off = some r ∧ regClass r = .cfg ∧
        t = writeCfg r v { s with env := e }) ∨
      (nextTurn s = .host ∧ ∃ r v off e,
        s.env.hostQueue.head? = some (.write (s.params.blockBase + off) 4 v) ∧
        regAt s.params.numPbus off = some r ∧ regClass r = .qry ∧
        t = writeQry r v { s with env := e })) := by
  unfold step stepWith at h
  split at h
  · rename_i hok
    refine ⟨hok, ?_⟩
    obtain ⟨e, he, hq⟩ := popTurn_eq s
    rw [he] at h
    split at h
    · rename_i ht
      right
      unfold hostTurn at h
      split at h
      · cases h
        exact .inl ⟨by simp [ht], e, rfl⟩
      · rename_i a rest hl
        have hp : popHost { s with env := e } =
            { s with env := { e with hostQueue := e.hostQueue.tail } } := rfl
        rw [hp] at h
        rcases hostAccess_cases h with ⟨e', rfl⟩ | ⟨w, ha, i, hd, hx⟩ | rfl |
          ⟨r, v, off, ha, hr, hc, rfl⟩ | ⟨r, v, off, ha, hr, hc, rfl⟩
        · exact .inl ⟨by simp [ht], e', rfl⟩
        · subst ha
          exact .inr (.inr (.inl ⟨ht, w, i, _, by rw [← hq, hl]; rfl, hd, hx⟩))
        · exact .inr (.inr (.inr (.inl ⟨ht, _, rfl⟩)))
        · subst ha
          exact .inr (.inr (.inr (.inr (.inl
            ⟨ht, r, v, off, _, by rw [← hq, hl]; rfl, hr, hc, rfl⟩))))
        · subst ha
          exact .inr (.inr (.inr (.inr (.inr
            ⟨ht, r, v, off, _, by rw [← hq, hl]; rfl, hr, hc, rfl⟩))))
    · rename_i ht
      right
      unfold blockTurn at h
      split at h
      · rename_i hb
        split at h
        · rename_i i hd
          exact .inr (.inl ⟨ht, hb, i, e, hd, h⟩)
        · cases h
      · cases h
        exact .inl ⟨by simp [ht], e, rfl⟩
    · rename_i ht
      cases h
      exact .inl ⟨ht, e, rfl⟩
  · cases h

end Sys2Proof.Machine
end

