-- ==== Sys2Proof/Tests/Slice0.lean ====
section
/-! SUPPORT. The model's own tests: well-formedness, written-out words, one step of each instruction
on a small state (expected values from spec/95_test_vectors.md and the rules' examples), and for
each statement with hypotheses a state that meets them. -/

namespace Sys2Proof.Tests

open Sys2Proof Sys2Proof.Machine Sys2Proof.Safety

/-! ### Helpers -/

/-- What `f` sees of the next state; `none` where there is none. -/
def seen {α : Type} (r : Result) (f : State → α) : Option α :=
  match r with
  | .next t => some (f t)
  | .fault _ => none
  | .refused _ => none

/-- The refusal a step ends in, if it does. -/
def refusalOf (r : Result) : Option Refusal :=
  match r with
  | .next _ => none
  | .fault _ => none
  | .refused q => some q

/-- The fault a step ends in, if it does. -/
def faultOf (r : Result) : Option Fault :=
  match r with
  | .next _ => none
  | .fault f => some f
  | .refused _ => none

/-- The configuration of program P2 (95_test_vectors.md), the block idle. -/
def p2 : State :=
  { State.reset with
    oscFreq := #v[4000000, 0, 0, 0], pllMode := 2, fixedMN := ⟨36, 1⟩, cpuDiv := 6,
    usbEn := true, usbDiv := 6, pbusDiv := [4, 6] }

/-- The configuration of program P3. -/
def p3 : State :=
  { State.reset with
    oscFreq := #v[4000000, 12000000, 0, 0], oscEn := 3, clkSrc := 1, pllMode := 1,
    desiredFreq := 120000000, usbEn := true, usbDiv := 10, pbusDiv := [1, 2] }

/-- The configuration of program P6, in `BYPASS` mode. -/
def p6 : State :=
  { State.reset with oscFreq := #v[4000000, 0, 0, 0], cpuDiv := 1, pbusDiv := [1, 8] }

/-- The block busy at a micro-step. -/
def busyAt (u : BitVec 6) (s : State) : State := { s with busy := true, ustep := u }

/-- The plant's next answers. -/
def answering (osc : List Bool) (pstat : List PStat) (s : State) : State :=
  { s with env := { s.env with oscAnswers := osc, pstatAnswers := pstat } }

/-- The turns to come and the host's accesses to come. -/
def turns (sched : List Turn) (q : List HostAccess) (s : State) : State :=
  { s with env := { s.env with schedule := sched, hostQueue := q } }

/-- P2 after `U_DERIVE`: `PLL_RESULT = (36, 1, 6)`. -/
def p2Derived : State := { p2 with pllResult := ⟨36, 1, 6⟩ }

/-- P6 after `U_DERIVE`: `PLL_RESULT = (0, 0, 1)`. -/
def p6Derived : State := { p6 with pllResult := ⟨0, 0, 1⟩ }

/-- The query operands set. -/
def query (fin fout : Word) (m : BitVec 16) (n : BitVec 8) : State :=
  { State.reset with synFin := fin, synFout := fout, synMN := ⟨m, n⟩ }

/-- P2 halted at `U_VALIDATE`. -/
def p2Halted : State :=
  { p2 with halted := true, fatalO := true, fault := .invalidDivider, ustep := Ucode.validate }

/-! ### Well-formed instructions and parameters -/

theorem test_wellFormed_refuses_getRate_of_no_domain :
    (Instr.getRate 5).wellFormed 2 = false ∧ (Instr.getRate 4).wellFormed 2 = true ∧
    (Instr.getRate 19).wellFormed 16 = false ∧ (Instr.getRate 18).wellFormed 16 = true := by
  decide

theorem test_params_ok : Config.testProfile.ok = true := by decide

/-- One set for each constraint of R7's table, in the table's order. -/
theorem test_params_refused :
    let p := Config.testProfile
    [{ p with mMin := 0 }, { p with mMin := 513 }, { p with mMax := 65536 },
      { p with nMin := 0 }, { p with nMin := 33 }, { p with nMax := 256 },
      { p with fccoMin := 0 }, { p with fccoMin := 550000001 }, { p with fccoMax := 4294967296 },
      { p with oscMin := #v[25000001, 0, 0, 0] }, { p with oscMax := #v[4294967296, 0, 0, 0] },
      { p with oscMin := #v[0, 25000001, 0, 0] }, { p with oscMin := #v[0, 0, 32769, 0] },
      { p with oscMin := #v[0, 0, 0, 48000001] },
      { p with maxCpuRate := 0 }, { p with maxCpuRate := 4294967296 },
      { p with usbDivSet := [8, 10] }, { p with usbDivSet := [6, 0] },
      { p with usbDivSet := [6, 256] }, { p with numPbus := 0, canBuses := [] },
      { p with numPbus := 17 }, { p with canBuses := [2] }, { p with bootRate := [0] },
      { p with bootRate := [0, 0, 0, 0, 4294967296] },
      { p with blockBase := 128 },
      { p with portMap := { PortMap.notGiven with pstatLock := some ⟨0, 26, 1, .minusOne⟩ } },
      { p with portMap := { PortMap.notGiven with oscStat := [(1, ⟨0, 6, 0, .same⟩)] } }].all
      (fun p => !p.ok) = true := by
  decide

/-! ### The port in the target chip's registers (R63) -/

/-- Cells of R63's REF17 table: `M - 1` and `N - 1`, the feed byte, and 11 as 6 on a CAN field. -/
theorem test_ref17_writes :
    let pm := ref17PortMap [⟨1, false, 13, true⟩]
    pm.ok = true ∧
    plantFields pm (.pcfg 36 1) = some [⟨0x400FC084, 0, 15, 35⟩, ⟨0x400FC084, 16, 8, 0⟩] ∧
    plantFields pm (.feed 0xAA) = some [⟨0x400FC08C, 0, 8, 0xAA⟩] ∧
    plantFields pm (.pbusDiv 1 6) = some [⟨0x400FC1A8, 26, 2, 3⟩] ∧
    plantFields pm (.pbusDiv 1 8) = none ∧ plantFields pm (.clkSrc 3) = none := by decide

/-- `en_stat` is bit 24, `conn_stat` bit 25, `lock` bit 26, OSCSTAT bit 6; a field whose code inverts
the bit is read back inverted. -/
theorem test_ref17_reads :
    let pm := ref17PortMap []
    pstatOfWord pm (fun _ => 0x05000000) = some ⟨true, false, true⟩ ∧
    oscStatOfWord pm 1 (fun _ => 0x40) = some true ∧
    oscStatOfWord pm 1 (fun _ => 0xBF) = some false ∧ oscStatOfWord pm 0 (fun _ => 0) = none ∧
    statusBit (some ⟨0, 3, 1, .table [(0, 1), (1, 0)]⟩) (fun _ => 8) = some false := by decide

/-! ### Words written out from the encodings of R76 and R78 -/

/-- `Z[31:16] ARG[15:8] OP[7:0]` (R73, R76). -/
theorem test_decode_commands :
    decode (.cmd32 0b0000000000000000_00000000_00000000) = .ok .nop ∧
    decode (.cmd32 0b0000000000000000_00000000_00000001) = .ok .init ∧
    decode (.cmd32 0b0000000000000000_00000000_00000010) = .ok .synth ∧
    decode (.cmd32 0b0000000000000000_00000000_00000011) = .ok .checkFixed ∧
    decode (.cmd32 0b0000000000000000_00000001_00000100) = .ok (.getRate 1) ∧
    decode (.cmd32 0b0000000000000000_11111111_00000100) = .ok (.getRate 255) := by
  decide

theorem test_decode_microsteps :
    decode (.ustep6 0b000000) = .ok .uIdle ∧
    decode (.ustep6 0b000001) = .ok .uValidate ∧
    decode (.ustep6 0b000010) = .ok .uOscEn ∧
    decode (.ustep6 0b000011) = .ok .uOscPoll ∧
    decode (.ustep6 0b000100) = .ok .uDerive ∧
    decode (.ustep6 0b000101) = .ok .uPstatSample ∧
    decode (.ustep6 0b000110) = .ok .uDisconnect ∧
    decode (.ustep6 0b000111) = .ok .uDisable ∧
    decode (.ustep6 0b001000) = .ok .uSrcSel ∧
    decode (.ustep6 0b001001) = .ok .uCpuDiv ∧
    decode (.ustep6 0b001010) = .ok .uCfg ∧
    decode (.ustep6 0b001011) = .ok .uEnable ∧
    decode (.ustep6 0b001100) = .ok .uLockPoll ∧
    decode (.ustep6 0b001101) = .ok .uConnect ∧
    decode (.ustep6 0b001110) = .ok .uConnPoll ∧
    decode (.ustep6 0b001111) = .ok .uFeedAa ∧
    decode (.ustep6 0b010000) = .ok .uFeed55 ∧
    decode (.ustep6 0b010001) = .ok .uUsbDiv ∧
    decode (.ustep6 0b010010) = .ok .uPbusDiv ∧
    decode (.ustep6 0b010011) = .ok .uCache ∧
    decode (.ustep6 0b010100) = .ok .uQuerySynth := by
  decide

/-- The illegal rows of vector table V3, and the first and last code that is no micro-step (R79). -/
theorem test_decode_refused :
    [0x00000005, 0x000000FF, 0x00000101, 0x00010000, 0x80000004, 0x00000504].all
      (illegalWord 2) = true ∧
    illegalWord 2 0x00000404 = false ∧
    decode (.ustep6 0x15) = .error (.noSuchMicroStep 0x15) ∧
    decode (.ustep6 0x3F) = .error (.noSuchMicroStep 0x3F) := by
  decide

theorem test_decode_table_word :
    decodeTableWord 32 0x00000204 = some (.getRate 2) ∧
    decodeTableWord 8 0x04 = some .uDerive ∧
    decodeTableWord 8 0x44 = none ∧ decodeTableWord 32 0x00010004 = none := by
  decide

/-! ### One step of each instruction -/

/-- R126's example: `CERR = BUSY` from an earlier refused write; `nop` leaves 0. -/
theorem test_nop_clears_cerr :
    seen (exec .nop { State.reset with cerr := .busy }) statusWord = some 0x00000000 := by decide

/-- P6: after `init`, `STATUS = 0x00100101`; a second one is refused with `REINIT`. -/
theorem test_init_starts :
    seen (exec .init { p6 with cerr := .illegal }) statusWord = some 0x00100101 := by decide

theorem test_init_refused_when_done :
    seen (exec .init { p6 with initDone := true, cerr := .busy }) statusWord
      = some 0x00030002 := by decide

theorem test_synth_starts :
    seen (exec .synth p2) (fun t => (t.busy, t.ustep)) = some (true, 0x14) := by decide

/-- V2 rows 1 and 10. -/
theorem test_checkFixed_ok :
    seen (exec .checkFixed (query 4000000 0 36 1)) (fun t => (t.synOk, t.synFcco, t.synResult))
      = some (true, 288000000, ⟨36, 1, 0⟩) ∧
    seen (exec .checkFixed (query 3000001 0 50 1)) (fun t => (t.synOk, t.synFcco))
      = some (true, 300000100) := by decide

/-- V2 rows 2, 5, 6, 7, 8 and 9. -/
theorem test_checkFixed_not_ok :
    [query 4000000 0 34 1, query 4000000 0 69 1, query 4000000 0 5 1, query 4000000 0 36 0,
      query 4000000 0 513 1, query 4000000 0 36 33].all
      (fun s => seen (exec .checkFixed { s with synOk := true, synFcco := 7 })
        (fun t => (t.synOk, t.synFcco)) == some (false, 0)) = true := by decide

/-- P6: before `INIT` the boot rate. -/
theorem test_getRate_boot_rate :
    seen (exec (.getRate 1) State.reset) (fun t => t.rateOut) = some 4000000 := by decide

/-- V3: index 5 with two buses is illegal. -/
theorem test_getRate_illegal_index :
    seen (exec (.getRate 5) State.reset) (fun t => (t.cerr, t.rateOut)) = some (.illegal, 0) := by
  decide

theorem test_uIdle_keeps_state : seen (exec .uIdle p2) id = some p2 := by decide

/-- V4 rows 5, 6, 8 and 16, from the base configuration. -/
theorem test_uValidate_faults :
    [{ p2 with usbDiv := 7 }, { p2 with pbusDiv := [6, 6] }, { p2 with fixedMN := ⟨5, 1⟩ },
      { p2 with oscFreq := #v[30000000, 0, 0, 0], pbusDiv := [6, 6] }].map
      (fun s => seen (exec .uValidate (busyAt 0x01 s)) statusWord)
      = [some 0x00103104, some 0x00103104, some 0x00105104, some 0x00102104] := by decide

theorem test_uValidate_passes :
    seen (exec .uValidate (busyAt 0x01 { p3 with curK := 3 })) (fun t => (t.curK, t.ustep, t.fault))
      = some (0, 0x02, .none) := by decide

theorem test_uOscEn :
    seen (exec .uOscEn (busyAt 0x02 { p3 with curK := 1, oscEnabled := 1 }))
      (fun t => (t.trace, t.oscEnabled, t.ustep)) = some ([.oscEn 1], 3, 0x03) := by decide

/-- P3 operations 4 and 5. -/
theorem test_uOscPoll_waits :
    seen (exec .uOscPoll (answering [false] [] (busyAt 0x03 { p3 with curK := 1 })))
      (fun t => (t.trace, t.oscStable, t.ustep)) = some ([.oscStat 1 false], 0, 0x03) := by decide

theorem test_uOscPoll_goes_on :
    seen (exec .uOscPoll (answering [true] [] (busyAt 0x03 p3)))
      (fun t => (t.oscStable, t.curK, t.ustep)) = some (1, 1, 0x02) ∧
    seen (exec .uOscPoll (answering [true] [] (busyAt 0x03 { p3 with curK := 1 })))
      (fun t => (t.oscStable, t.curK, t.ustep)) = some (2, 1, 0x04) := by decide

/-- R134's example, by the search, and program P2. -/
theorem test_uDerive :
    seen (exec .uDerive (busyAt 0x04 p3)) (fun t => (tripleWord t.pllResult, t.ustep))
      = some (0x04010014, 0x05) ∧
    seen (exec .uDerive (busyAt 0x04 p2)) (fun t => (tripleWord t.pllResult, t.ustep))
      = some (0x06010024, 0x05) := by decide +kernel

/-- V4 rows 11, 12 and 13. -/
theorem test_uDerive_faults :
    seen (exec .uDerive (busyAt 0x04 { p2 with cpuDiv := 2 })) statusWord = some 0x00406304 ∧
    seen (exec .uDerive (busyAt 0x04 { p2 with usbDiv := 8 })) statusWord = some 0x00407304 ∧
    seen (exec .uDerive (busyAt 0x04 { p6 with usbEn := true, usbDiv := 6 })) statusWord
      = some 0x00407304 := by decide

/-- P3 operation 6, and the corner case `(0, 1)` of R97. -/
theorem test_uPstatSample :
    [(⟨true, true, true⟩ : PStat), ⟨false, true, false⟩, ⟨true, false, false⟩,
      ⟨false, false, true⟩].map
      (fun a => seen (exec .uPstatSample (answering [] [a] p3))
        (fun t => (t.en0, t.conn0, t.ustep)))
      = [some (true, true, 0x06), some (false, true, 0x06), some (true, false, 0x07),
        some (false, false, 0x08)] := by decide

theorem test_uDisconnect :
    seen (exec .uDisconnect { p3 with en0 := true }) (fun t => (t.trace, t.feedRet, t.ustep))
      = some ([.pcon true false], 0x07, 0x0F) ∧
    seen (exec .uDisconnect p3) (fun t => (t.trace, t.feedRet, t.ustep))
      = some ([.pcon false false], 0x08, 0x0F) := by decide

theorem test_uDisable :
    seen (exec .uDisable p3) (fun t => (t.trace, t.feedRet, t.ustep))
      = some ([.pcon false false], 0x08, 0x0F) := by decide

theorem test_uSrcSel :
    seen (exec .uSrcSel { p3 with seqState := .connected }) (fun t => (t.trace, t.seqState, t.ustep))
      = some ([.clkSrc 1], .disabled, 0x09) := by decide

/-- R101's example, and program P6, whose PLL phase ends here. -/
theorem test_uCpuDiv :
    seen (exec .uCpuDiv { p3 with pllResult := ⟨20, 1, 4⟩ }) (fun t => (t.trace, t.ustep))
      = some ([.cpuDiv 4], 0x0A) ∧
    seen (exec .uCpuDiv { p6Derived with curN := 5 }) (fun t => (t.trace, t.ustep, t.curN))
      = some ([.cpuDiv 1], 0x12, 0) := by decide

theorem test_uCfg :
    seen (exec .uCfg p2Derived) (fun t => (t.trace, t.feedRet, t.ustep))
      = some ([.pcfg 36 1], 0x0B, 0x0F) := by decide

theorem test_uEnable :
    seen (exec .uEnable p2Derived) (fun t => (t.trace, t.feedRet, t.ustep))
      = some ([.pcon true false], 0x0C, 0x0F) := by decide

theorem test_uLockPoll :
    seen (exec .uLockPoll (answering [] [⟨true, false, false⟩] p3)) (fun t => (t.ustep, t.seqState))
      = some (0x0C, .disabled) ∧
    seen (exec .uLockPoll (answering [] [⟨true, false, true⟩] p3)) (fun t => (t.ustep, t.seqState))
      = some (0x0D, .locked) := by decide

theorem test_uConnect :
    seen (exec .uConnect p2Derived) (fun t => (t.trace, t.feedRet, t.ustep))
      = some ([.pcon true true], 0x0E, 0x0F) := by decide

theorem test_uConnPoll :
    seen (exec .uConnPoll (answering [] [⟨true, false, true⟩] p3)) (fun t => (t.ustep, t.seqState))
      = some (0x0E, .disabled) ∧
    seen (exec .uConnPoll (answering [] [⟨true, true, true⟩] p3)) (fun t => (t.ustep, t.seqState))
      = some (0x11, .connected) := by decide

/-- A build with the bypass: the wait ends at its first read, whatever it answers (R96). -/
theorem test_waits_with_readyBypass :
    seen (exec .uLockPoll (answering [] [⟨false, false, false⟩]
      { p3 with params := { Config.testProfile with readyBypass := true } }))
      (fun t => (t.trace, t.ustep)) = some ([.pstat ⟨false, false, false⟩], 0x0D) := by decide

theorem test_uFeedAa :
    seen (exec .uFeedAa { p2 with feedRet := 0x0B }) (fun t => (t.trace, t.ustep))
      = some ([.feed 0xAA], 0x10) := by decide

theorem test_uFeed55 :
    seen (exec .uFeed55 { p2 with feedRet := 0x0B }) (fun t => (t.trace, t.ustep, t.seqState))
      = some ([.feed 0x55], 0x0B, .disabled) ∧
    seen (exec .uFeed55 { p2 with feedRet := 0x0C }) (fun t => (t.trace, t.ustep, t.seqState))
      = some ([.feed 0x55], 0x0C, .enabling) := by decide

theorem test_uUsbDiv :
    seen (exec .uUsbDiv p2) (fun t => (t.trace, t.ustep)) = some ([.usbDiv 6], 0x12) := by decide

/-- R119's example. -/
theorem test_uPbusDiv :
    seen (exec .uPbusDiv p2) (fun t => (t.trace, t.curN, t.ustep))
      = some ([.pbusDiv 0 4], 1, 0x12) ∧
    seen (exec .uPbusDiv { p2 with curN := 1 }) (fun t => (t.trace, t.curN, t.ustep))
      = some ([.pbusDiv 1 6], 1, 0x13) := by decide

/-- The end states of P2 and P6. -/
theorem test_uCache :
    seen (exec .uCache (busyAt 0x13 p2Derived)) (fun t => t.rate)
      = some [4000000, 48000000, 48000000, 12000000, 8000000] ∧
    seen (exec .uCache (busyAt 0x13 p6Derived)) (fun t => (t.rate, t.initDone, t.busy, t.ustep))
      = some ([4000000, 4000000, 0, 4000000, 500000], true, false, 0x00) := by decide

/-- V1 row 1, with the ranges narrowed to keep the evaluation short. -/
theorem test_uQuerySynth_ok :
    seen (exec .uQuerySynth (busyAt 0x14
      { query 4000000 48000000 0 0 with params := { Config.testProfile with mMax := 70 } }))
      (fun t => (tripleWord t.synResult, t.synFcco, t.synOk, t.busy, t.ustep))
      = some (0x0B010042, 528000000, true, false, 0x00) := by decide +kernel

/-- V1 row 23: one unit above the boundary. -/
theorem test_uQuerySynth_unsat :
    seen (exec .uQuerySynth (busyAt 0x14
      { query 12000000 275000001 0 0 with
        params := { Config.testProfile with mMax := 40, nMax := 1 }, synOk := true }))
      (fun t => (tripleWord t.synResult, t.synFcco, t.synOk)) = some (0, 0, false) := by
  decide +kernel

/-! ### Each statement's hypotheses are met

`test_witness_<Name>` meets the hypotheses of `Obligations.<Name>`, clause by clause, at a boundary
value where there is one. -/

theorem test_witness_IllegalWordRefused :
    State.reset.halted = false ∧ State.reset.busy = false ∧
    [0x00010000, 0x00000005, 0x00000103, 0x00000504].all
      (illegalWord State.reset.params.numPbus) = true := by decide

theorem test_witness_WrittenWordsDecode :
    0x15 ≤ (0x15 : BitVec 6).toNat ∧ 0x15 ≤ (0x3F : BitVec 6).toNat := by decide

theorem test_witness_StepRunsCommand :
    let s := turns [.host, .block] [.write 0 4 0x00000404] p2
    s.params.ok = true ∧ encode (.getRate 4) = .cmd32 0x00000404 ∧
    s.env.schedule = .host :: [.block] ∧
    s.env.hostQueue = .write s.params.blockBase 4 0x00000404 :: [] := by decide

theorem test_witness_StepRunsMicroStep :
    let s := turns [.block] [] (busyAt 0x14 p2)
    let r := turns [.block] [] p2
    s.params.ok = true ∧ s.env.schedule = .block :: [] ∧ s.busy = true ∧
    encode .uQuerySynth = .ustep6 s.ustep ∧
    r.params.ok = true ∧ r.env.schedule = .block :: [] ∧ r.busy = false := by decide

theorem test_witness_FetchWordRuns :
    State.reset.params.ok = true ∧ encode (.getRate 255) = .cmd32 0x0000FF04 ∧
    encode .uQuerySynth = .ustep6 0x14 := by decide

theorem test_witness_ResetTurnResets :
    let s := turns [.reset] [] { p2Halted with trace := [.oscEn 0] }
    s.params.ok = true ∧ s.env.schedule = .reset :: [] ∧ 0 < 256 ∧ 255 < 256 := by decide

theorem test_witness_RegisterMap :
    { Config.testProfile with numPbus := 16 }.numPbus ≤ 16 ∧
    (.cmd, 0x000, .wo) ∈ registerTable ∧ (.synFcco, 0x090, .ro) ∈ registerTable ∧
    regAt 16 0x07C = some (.pbusDiv 15) ∧ regAt 1 0x040 = some (.pbusDiv 0) ∧
    regOffset (.oscFreq 3) = 0x01C := by decide

theorem test_witness_RegisterMap_exists :
    RegExists { Config.testProfile with numPbus := 16 } (.pbusDiv 15) := by
  intro n h
  injection h with h
  subst h
  decide

theorem test_witness_ReservedReadsZero :
    regAt p2.params.numPbus 0x048 = none ∧ regAt p2.params.numPbus 0x094 = none ∧
    regAt p2.params.numPbus 0x0FC = none ∧ regAt p2.params.numPbus 0x044 = some (.pbusDiv 1) ∧
    0x10000 ≤ (0x00010000 : Word).toNat := by decide

theorem test_witness_ReadBackAfterStore :
    p2.params.numPbus ≤ 16 ∧ p2.pbusDiv.length = p2.params.numPbus ∧
    regAt p2.params.numPbus 0x044 = some (.pbusDiv 1) ∧ regClass (.pbusDiv 1) = .cfg ∧
    regAt p2.params.numPbus 0x088 = some .synMNIn ∧ regClass .synMNIn = .qry ∧
    0x040 ≠ 0x044 := by decide

theorem test_witness_HostReadHasNoSideEffect :
    0x000 % 4 = 0 ∧ 0x000 ≤ 0xFC ∧ 0x0FC % 4 = 0 ∧ 0x0FC ≤ 0xFC := by decide

theorem test_witness_RegisterWords :
    1 < p2.params.numPbus ∧ p2.params.numPbus ≤ 16 := by decide

theorem test_witness_FieldCodesAndPhases :
    (0x00 : BitVec 6).toNat ≤ 0x14 ∧ (0x14 : BitVec 6).toNat ≤ 0x14 := by decide

theorem test_witness_HostWriteByClass :
    0x048 % 4 = 0 ∧ 0x048 ≤ 0xFC ∧ regAt p2.params.numPbus 0x048 = none ∧
    regAt p2.params.numPbus 0x004 = some .status ∧ regClass .status = .ro ∧
    regAt p2.params.numPbus 0x034 = some .cpuDiv ∧ regClass .cpuDiv = .cfg ∧
    regAt p2.params.numPbus 0x080 = some .synFin ∧ regClass .synFin = .qry ∧
    p2Halted.halted = true ∧
    (busyAt 0x01 p2).halted = false ∧ (busyAt 0x01 p2).busy = true ∧
    { p2 with initDone := true }.initDone = true ∧
    p2.halted = false ∧ p2.busy = false ∧ p2.initDone = false := by decide

/-- A wrong size and a wrong alignment, at either end of the window. -/
theorem test_witness_InadmissibleAccessHasNoStep :
    ∀ a ∈ [(0, 2), (0, 8), (1, 4), (254, 4), (252, 1), (255, 1)],
      a.1 < 256 ∧ 0 < a.2 ∧ ¬ (a.2 = 4 ∧ a.1 % 4 = 0 ∧ a.1 ≤ 0xFC) := by decide

/-- An access that reaches into the window from below is one to the window (assumption 9). -/
theorem test_straddling_access_is_refused :
    refusalOf (hostAccess exec (.read 254 4)
      { p2 with params := { Config.testProfile with blockBase := 256 } }) = some (.busError 254 4) := by
  decide

theorem test_witness_LanesAreLittleEndian :
    0 < 4 ∧ 3 < 4 ∧ lane 0x01020304 0 = 0x04 ∧ lane 0x01020304 3 = 0x01 := by decide

theorem test_witness_CommandRefusals :
    p2Halted.halted = true ∧
    (busyAt 0x01 p2).halted = false ∧ (busyAt 0x01 p2).busy = true ∧
    { p2 with initDone := true }.halted = false ∧ { p2 with initDone := true }.busy = false ∧
    { p2 with initDone := true }.initDone = true := by decide

theorem test_witness_StartingCommandsAccepted :
    p2.halted = false ∧ p2.busy = false ∧ p2.initDone = false := by decide

theorem test_witness_GetRateCopies :
    p2.halted = false ∧ p2.busy = false ∧
    (4 : BitVec 8).toNat ≤ 2 + p2.params.numPbus ∧ p2.rate[(4 : BitVec 8).toNat]? = some 1000000 ∧
    2 + p2.params.numPbus < (5 : BitVec 8).toNat := by decide

/-- V2 rows 11 (at `FCCO_MAX`) and 5. -/
theorem test_witness_CheckFixedResult :
    let s := query 12000000 0 275 12
    let r := query 4000000 0 69 1
    s.params.ok = true ∧ s.halted = false ∧ s.busy = false ∧
    PairLegal s.params s.synFin.toNat s.synMN.m.toNat s.synMN.n.toNat ∧
    ¬ PairLegal r.params r.synFin.toNat r.synMN.m.toNat r.synMN.n.toNat := by decide

/-- V1 row 4 meets the contract. -/
theorem test_witness_SearchReturnsFirstMatch :
    Match Config.testProfile 12000000 275000000 ⟨275, 12, 2⟩ := by
  constructor <;> decide

theorem test_witness_SearchByDivisionAgrees : Config.testProfile.ok = true := by decide

/-- V1 rows 23 and 30. -/
theorem test_witness_SearchUnsatInputs :
    Config.testProfile.ok = true ∧ Config.testProfile.fccoMax / 2 < 275000001 ∧
    1078431 * 255 < Config.testProfile.fccoMin := by decide

/-- The first row of E6; the last row of E6, in small numbers, is `test_boundary_not_every_fin`. -/
theorem test_witness_BoundaryFrequency :
    Config.testProfile.ok = true ∧ Config.testProfile.fccoMax % 2 = 0 ∧
    Config.testProfile.nMin ≤ 12 ∧ 12 ≤ Config.testProfile.nMax ∧
    Config.testProfile.mMin ≤ 275 ∧ 275 ≤ Config.testProfile.mMax ∧
    2 * 12000000 * 275 = Config.testProfile.fccoMax * 12 := by decide

/-- `M/N` would have to be 5/3, and the ranges hold only 1 and 2 over 1 (90_conflicts.md C5). -/
theorem test_boundary_not_every_fin :
    let p := { Config.testProfile with
      mMin := 1, mMax := 2, nMin := 1, nMax := 1, fccoMin := 4, fccoMax := 10 }
    p.ok = true ∧ search p 3 (p.fccoMax / 2) = none := by decide +kernel

theorem test_witness_QuerySynthResult :
    let s := query 12000000 120000000 0 0
    let r := { query 12000000 0 0 0 with params := { Config.testProfile with mMax := 8, nMax := 1 } }
    s.params.ok = true ∧ search s.params s.synFin.toNat s.synFout.toNat = some ⟨20, 1, 4⟩ ∧
    r.params.ok = true ∧ search r.params r.synFin.toNat r.synFout.toNat = none := by
  decide +kernel

theorem test_witness_InUseAscending :
    InUse p3 0 ∧ InUse p3 1 ∧ ¬ InUse p3 2 ∧ nextOsc p3 0 = some 1 ∧ nextOsc p3 1 = none := by
  decide

/-- The configuration of P2 is legal: the pair, the CAN divider 6 on bus 1, the USB divider. -/
theorem test_p2_configLegal : ConfigLegal p2 := by
  constructor <;> decide

theorem test_p3_configLegal : ConfigLegal p3 := by
  constructor <;> decide

theorem test_p6_configLegal : ConfigLegal p6 := by
  constructor <;> decide

theorem test_witness_ValidatePasses :
    ConfigLegal p2 ∧ InUse p2 0 ∧ ∀ j, InUse p2 j → (0 : BitVec 2).toNat ≤ j.toNat :=
  ⟨test_p2_configLegal, by decide, by decide⟩

/-- V4 rows 2 and 1. -/
theorem test_witness_ValidateFaultsInOrder_mode :
    { State.reset with pllMode := 3 }.pllMode = modeReserved ∧
    State.reset.pllMode ≠ modeReserved ∧ InUse State.reset 0 ∧ ¬ OscLegal State.reset 0 := by decide

/-- The oscillator check and the mode check pass, and one divider check fails: V4 rows 4, 5, 6. -/
def DividersOnlyFail (s : State) : Prop :=
  s.pllMode ≠ modeReserved ∧ (∀ k, InUse s k → OscLegal s k) ∧
  ¬ (CpuDivLegal s ∧ UsbDivLegal s ∧ BusDivsLegal s)

theorem test_witness_ValidateFaultsInOrder_dividers :
    DividersOnlyFail { p2 with cpuDiv := 1 } ∧ DividersOnlyFail { p2 with usbDiv := 7 } ∧
    DividersOnlyFail { p2 with pbusDiv := [6, 6] } := by
  refine ⟨⟨by decide, by decide, fun h => absurd (h.1.2 (by decide)) (by decide)⟩,
    ⟨by decide, by decide, fun h => absurd (h.2.1 (by decide)) (by decide)⟩,
    ⟨by decide, by decide, fun h => absurd (h.2.2 0 (by decide)) (by decide)⟩⟩

/-- Every check before the pair's passes (V4 rows 8 and 9). -/
def PairReached (s : State) : Prop :=
  s.pllMode = modeFixed ∧ (∀ k, InUse s k → OscLegal s k) ∧ CpuDivLegal s ∧ UsbDivLegal s ∧
  BusDivsLegal s

theorem test_witness_ValidateFaultsInOrder_pair :
    (PairReached { p2 with fixedMN := ⟨5, 1⟩ } ∧ ¬ p2.params.mMin ≤ 5) ∧
    (PairReached { p2 with fixedMN := ⟨34, 1⟩ } ∧ p2.params.mMin ≤ 34 ∧ 34 ≤ p2.params.mMax ∧
      p2.params.nMin ≤ 1 ∧ ¬ PairLegal p2.params (finOf p2) 34 1) := by
  refine ⟨⟨⟨?_, ?_, ?_, ?_, ?_⟩, ?_⟩, ⟨?_, ?_, ?_, ?_, ?_⟩, ?_, ?_, ?_, ?_⟩ <;> decide

theorem test_witness_OscillatorSteps :
    let wait := answering [false] [] (busyAt 0x03 p3)
    let go := answering [true] [] (busyAt 0x03 p3)
    let last := answering [true] [] (busyAt 0x03 { p3 with curK := 1 })
    (wait.params.readyBypass = false ∧ oscStatAnswer wait = false) ∧
    (oscStatAnswer go = true ∧ InUse go 1 ∧ go.curK.toNat < (1 : BitVec 2).toNat ∧
      ∀ j, InUse go j → go.curK.toNat < j.toNat → (1 : BitVec 2).toNat ≤ j.toNat) ∧
    (oscStatAnswer last = true ∧ ∀ j, InUse last j → j.toNat ≤ last.curK.toNat) := by decide

/-- A choice in each mode. -/
theorem test_witness_DerivePasses :
    (p2.params.ok = true ∧ Chosen p2 ⟨36, 1, 6⟩ ∧ CpuRateLegal p2 ⟨36, 1, 6⟩ ∧
      UsbRateLegal p2 ⟨36, 1, 6⟩) ∧
    (p3.params.ok = true ∧ Chosen p3 ⟨20, 1, 4⟩ ∧ CpuRateLegal p3 ⟨20, 1, 4⟩ ∧
      UsbRateLegal p3 ⟨20, 1, 4⟩) ∧
    (p6.params.ok = true ∧ Chosen p6 ⟨0, 0, 1⟩ ∧ CpuRateLegal p6 ⟨0, 0, 1⟩ ∧
      UsbRateLegal p6 ⟨0, 0, 1⟩) := by decide +kernel

/-- Nothing matches a target of 0 (V1 row 25). -/
theorem test_witness_DeriveFaultsInOrder_unsatisfiable :
    let s := { p3 with desiredFreq := 0 }
    s.pllMode = modeSynth ∧ ∀ c, ¬ Match s.params (finOf s) s.desiredFreq.toNat c := by
  refine ⟨by decide, fun c h => ?_⟩
  have h1 : 2 * finOf { p3 with desiredFreq := 0 } * c.m = 0 := by
    rw [h.exact]
    simp
  have h2 : 275000000 * c.n ≤ 2 * finOf { p3 with desiredFreq := 0 } * c.m := h.fccoRange.1
  have h3 : 1 ≤ c.n := h.nRange.1
  omega

/-- V4 rows 11 and 12. -/
theorem test_witness_DeriveFaultsInOrder_rates :
    let s := { p2 with cpuDiv := 2 }
    let r := { p2 with usbDiv := 8 }
    (Chosen s ⟨36, 1, 2⟩ ∧ ¬ CpuRateLegal s ⟨36, 1, 2⟩) ∧
    (Chosen r ⟨36, 1, 6⟩ ∧ CpuRateLegal r ⟨36, 1, 6⟩ ∧ ¬ UsbRateLegal r ⟨36, 1, 6⟩) := by
  decide +kernel

theorem test_witness_SampleDecidesDisable :
    pstatAnswer (answering [] [⟨true, true, false⟩] p3) = ⟨true, true, false⟩ := by decide

theorem test_witness_SequencerWrites : p2.pllMode ≠ modeBypass := by decide

theorem test_witness_LockAndConnectPolls :
    let s := answering [] [⟨true, true, true⟩] p3
    let r := answering [] [⟨true, false, false⟩] p3
    pstatAnswer s = ⟨true, true, true⟩ ∧ pstatAnswer r = ⟨true, false, false⟩ ∧
    r.params.readyBypass = false := by decide

/-- Two unanswered reads of each wait. -/
theorem test_witness_WaitsHaveNoTimeout :
    let as : List PStat := [⟨true, false, false⟩, ⟨true, false, false⟩]
    let lock := turns [.block, .block, .host] [] (answering [] as (busyAt 0x0C p2))
    let conn := turns [.block, .block, .host] [] (answering [] as (busyAt 0x0E p2))
    let osc := turns [.block, .block, .host] [] (answering [false, false] [] (busyAt 0x03 p2))
    (∀ s ∈ [lock, conn, osc], s.params.ok = true ∧ s.params.readyBypass = false ∧ s.busy = true ∧
      s.env.schedule = List.replicate 2 .block ++ [.host]) ∧
    as.length = 2 ∧ (∀ a ∈ as, a.lock = false) ∧ (∀ a ∈ as, a.conn = false) ∧
    (∀ s ∈ [lock, conn], s.env.pstatAnswers = as ++ []) ∧
    osc.env.oscAnswers = List.replicate 2 false ++ [] := by decide

theorem test_witness_DividerWrites :
    p6.pllMode = modeBypass ∧
    (p2.pbusDiv[p2.curN.toNat]? = some 4 ∧ (1 : BitVec 4).toNat = p2.curN.toNat + 1 ∧
      (1 : BitVec 4).toNat < p2.params.numPbus) ∧
    (let s := { p2 with curN := 1 }
     s.pbusDiv[s.curN.toNat]? = some 6 ∧ s.params.numPbus ≤ s.curN.toNat + 1) := by decide

/-- What `U_DERIVE` leaves in P2 is legal. -/
theorem test_p2_derivedLegal : DerivedLegal p2Derived := by
  constructor <;> decide +kernel

theorem test_p6_derivedLegal : DerivedLegal p6Derived := by
  constructor <;> decide +kernel

theorem test_witness_CacheHoldsExactFloors :
    p2Derived.params.ok = true ∧ ConfigLegal p2Derived ∧ DerivedLegal p2Derived :=
  ⟨by decide, by constructor <;> decide, test_p2_derivedLegal⟩

/-- A block's step, and a step of the host. -/
theorem test_witness_OnePortOperationPerStep :
    (let s := turns [.block] [] (busyAt 0x11 p2)
     NotReset s ∧ ∃ t, step s = .next t ∧ t.trace = [.usbDiv 6]) ∧
    (let s := turns [.host] [.write 0 4 0] p2
     NotReset s ∧ nextTurn s = .host ∧ ∃ t, step s = .next t ∧ t.trace = []) :=
  ⟨⟨by decide, _, rfl, by decide⟩, ⟨by decide, by decide, _, rfl, by decide⟩⟩

/-- Each result register is seen to change. -/
theorem test_witness_ResultRegistersChangeOnlyBy :
    (let s := turns [.host] [.write 0 4 0x104] p2
     NotReset s ∧ ∃ t, step s = .next t ∧ t.rateOut ≠ s.rateOut) ∧
    (let s := turns [.block] [] (busyAt 0x04 p2)
     NotReset s ∧ ∃ t, step s = .next t ∧ t.pllResult ≠ s.pllResult) ∧
    (let s := turns [.host] [.write 0 4 0x003] (query 4000000 0 36 1)
     NotReset s ∧ ∃ t, step s = .next t ∧ t.synResult ≠ s.synResult ∧ t.synFcco ≠ s.synFcco) :=
  ⟨⟨by decide, _, rfl, by decide⟩, ⟨by decide, _, rfl, by decide⟩, ⟨by decide, _, rfl, by decide⟩⟩

theorem test_witness_StickyBits :
    let s := turns [.block] [] { busyAt 0x02 p2 with oscEnabled := 2, oscStable := 2 }
    let r := turns [.host] [.write 0 4 0] { p2Halted with initDone := true }
    (NotReset s ∧ s.oscEnabled.getLsbD 1 = true ∧ s.oscStable.getLsbD 1 = true ∧
      ∃ t, step s = .next t) ∧
    (NotReset r ∧ r.initDone = true ∧ r.halted = true ∧ ∃ t, step r = .next t) :=
  ⟨⟨by decide, by decide, by decide, _, rfl⟩, ⟨by decide, by decide, by decide, _, rfl⟩⟩

theorem test_witness_ConfigurationLock :
    let s := turns [.host] [.write 0x034 4 7] p2
    NotReset s ∧ ∃ t, step s = .next t ∧ ¬ SameConfig s t :=
  ⟨by decide, _, rfl, fun h => absurd h.cpuDiv (by decide)⟩

theorem test_witness_HostRefusedWhileBusy :
    let s := turns [.host] [.write 0x034 4 7] (busyAt 0x01 p2)
    s.halted = false ∧ s.busy = true ∧ nextTurn s = .host ∧ ∃ t, step s = .next t :=
  ⟨by decide, by decide, by decide, _, rfl⟩

/-- A halted block, and the host about to write. -/
theorem test_witness_HaltedUntilReset :
    let s := turns [.host] [.write 0x034 4 7] p2Halted
    ControlInv s ∧ s.halted = true ∧ NotReset s ∧ ∃ t, step s = .next t :=
  ⟨by constructor <;> decide, by decide, by decide, _, rfl⟩

/-- P2 at `U_CACHE`, with the part of its trace that `PW_PCFG` begins. -/
def p2AtCache : State :=
  turns [.block] [] { busyAt 0x13 p2Derived with
    curN := 1, feedRet := Ucode.connPoll, seqState := .connected, oscEnabled := 1, oscStable := 1,
    trace := [.pcfg 36 1, .feed 0xAA, .feed 0x55] }

theorem test_p2AtCache_controlInv : ControlInv p2AtCache := by constructor <;> decide

theorem test_p2AtCache_dataInv : DataInv p2AtCache where
  validated := fun _ => by constructor <;> decide
  derived := fun _ => by constructor <;> decide +kernel
  cached := fun h => absurd h (by decide)
  bootRates := fun _ => by decide
  noResult := fun _ h => absurd (by decide) h

theorem test_p2AtCache_seqInv : SeqInv p2AtCache := by constructor <;> decide

theorem test_p2AtCache_pairInv : PairInv p2AtCache where
  atCfg := by decide
  pairs := fun m n h => by simpa [p2AtCache, turns, busyAt, p2Derived] using h
  written := fun m n _ => by decide

/-- A busy block in the middle of the feed of `U_CFG`. -/
def p2InFeed : State :=
  turns [.block] [] { busyAt Ucode.feed55 p2Derived with
    feedRet := 0x0B, trace := [.clkSrc 0, .pcfg 36 1, .feed 0xAA] }

theorem test_p2InFeed_controlInv : ControlInv p2InFeed := by constructor <;> decide

theorem test_p2InFeed_feedInv : FeedInv p2InFeed := by
  have e : p2InFeed.trace ++ pendingFeed p2InFeed.ustep
      = [.clkSrc 0, .pcfg 36 1, .feed 0xAA, .feed 0x55] := by decide
  unfold FeedInv
  rw [e]
  constructor
  · intro i ev h hc
    rcases i with _ | _ | _ | _ | i <;> simp_all [IsChange]
    all_goals (subst h; simp at hc)
  · intro i b h
    rcases i with _ | _ | _ | _ | i <;> simp at h
    · subst h; exact .inl ⟨1, _, rfl, rfl, rfl, .inr ⟨_, _, rfl⟩⟩
    · subst h; exact .inr ⟨1, _, rfl, rfl, rfl, .inr ⟨_, _, rfl⟩⟩

theorem test_witness_CacheWrittenOnce :
    ControlInv p2AtCache ∧ NotReset p2AtCache ∧
    (∃ t, step p2AtCache = .next t ∧ t.rate ≠ p2AtCache.rate) ∧
    (let s := turns [.host] [.read 0 4] { p2 with initDone := true, rate := [1, 2, 3, 4, 5] }
     ControlInv s ∧ NotReset s ∧ s.initDone = true ∧ ∃ t, step s = .next t) :=
  ⟨test_p2AtCache_controlInv, by decide, ⟨_, rfl, by decide⟩, by constructor <;> decide,
    by decide, by decide, _, rfl⟩

theorem test_witness_InvariantsAtReset :
    Config.testProfile.ok = true ∧
    { Config.testProfile with numPbus := 1, canBuses := [], bootRate := [0, 0, 0, 0] }.ok = true := by
  decide

theorem test_witness_ControlInvKept :
    ControlInv p2AtCache ∧ ∃ t, step p2AtCache = .next t ∧ t.initDone = true :=
  ⟨test_p2AtCache_controlInv, _, rfl, by decide⟩

theorem test_witness_FeedRuleKept :
    (ControlInv p2InFeed ∧ FeedInv p2InFeed ∧
      ∃ t, step p2InFeed = .next t ∧ ¬ InFeed t) ∧
    FeedInv State.reset ∧ ¬ InFeed State.reset := by
  refine ⟨⟨test_p2InFeed_controlInv, test_p2InFeed_feedInv, _, rfl, by decide⟩, ?_, by decide⟩
  constructor <;> simp [State.reset, State.resetWith, pendingFeed]

/-- P2 at `U_CACHE`, and the host about to make a misaligned read. -/
def p2Misaligned : State := turns [.host] [.read 2 4] p2AtCache

/-- A misaligned access stops the step with the bus error, one above the window with the fault. -/
theorem test_witness_OnlyBadAccessesStop :
    (ControlInv p2Misaligned ∧ DataInv p2Misaligned ∧
      refusalOf (step p2Misaligned) = some (.busError 2 4)) ∧
    faultOf (step (turns [.host] [.read 256 4] p2)) = some (.outsideWindow 256) := by
  refine ⟨⟨by constructor <;> decide, ?_, by decide⟩, by decide⟩
  have d := test_p2AtCache_dataInv
  exact ⟨fun h => ⟨(d.validated h).1, (d.validated h).2, (d.validated h).3, (d.validated h).4,
      (d.validated h).5, (d.validated h).6⟩,
    fun h => ⟨(d.derived h).1, (d.derived h).2, (d.derived h).3⟩,
    fun h => absurd h (by decide), d.bootRates, fun _ h => absurd (by decide) h⟩

theorem test_witness_StopsAreNamed :
    { Config.testProfile with mMin := 0 }.ok = false ∧
    { p2 with pllMode := 3 }.pllMode = modeReserved ∧
    (let s := turns [.block] [] (busyAt 0x15 p2)
     s.params.ok = true ∧ s.env.schedule = .block :: [] ∧ s.busy = true ∧
     0x15 ≤ s.ustep.toNat) := by decide

theorem test_witness_DataInvKept :
    ControlInv p2AtCache ∧ DataInv p2AtCache ∧ PastDerive p2AtCache ∧
    ∃ t, step p2AtCache = .next t ∧ t.initDone = true :=
  ⟨test_p2AtCache_controlInv, test_p2AtCache_dataInv, by decide, _, rfl, by decide⟩

theorem test_witness_WrittenPairsLegal :
    ControlInv p2AtCache ∧ DataInv p2AtCache ∧ PairInv p2AtCache ∧
    (∃ t, step p2AtCache = .next t) ∧ .pcfg 36 1 ∈ p2AtCache.trace :=
  ⟨test_p2AtCache_controlInv, test_p2AtCache_dataInv, test_p2AtCache_pairInv, ⟨_, rfl⟩, by decide⟩

theorem test_witness_SeqInvKept :
    ControlInv p2AtCache ∧ SeqInv p2AtCache ∧ ∃ t, step p2AtCache = .next t :=
  ⟨test_p2AtCache_controlInv, test_p2AtCache_seqInv, _, rfl⟩

/-- The step that enters `LOCKED`. -/
theorem test_witness_SeqStateMovesForward :
    let s := turns [.block] [] (answering [] [⟨true, false, true⟩]
      { busyAt 0x0C p2Derived with seqState := .enabling })
    ControlInv s ∧ SeqInv s ∧ NotReset s ∧ ∃ t, step s = .next t ∧ t.seqState = .locked :=
  ⟨by constructor <;> decide, by constructor <;> decide, by decide, _, rfl, by decide⟩

/-- A wait with one unanswered read before its end. -/
def oneMore {α : Type} (no yes : α) : Wait α := ⟨[no], yes⟩

theorem test_witness_PllPhaseTrace :
    let off : PStat := ⟨false, false, false⟩
    let lock := oneMore (α := PStat) ⟨true, false, false⟩ ⟨true, false, true⟩
    let conn := oneMore (α := PStat) ⟨true, false, true⟩ ⟨true, true, true⟩
    let s := busyAt Ucode.pstatSample p2Derived
    let tr := commonPllTrace s off ++ pllModesTrace s lock conn
    let r := turns (List.replicate tr.length .block ++ [.host]) []
      (answering [] (off :: (lock.answers ++ conn.answers) ++ []) s)
    r.params.ok = true ∧ r.busy = true ∧ r.ustep = Ucode.pstatSample ∧ r.pllMode ≠ modeBypass ∧
    (r.params.readyBypass = false ∧ (∀ a ∈ lock.before, a.lock = false) ∧ lock.last.lock = true ∧
      (∀ a ∈ conn.before, a.conn = false) ∧ conn.last.conn = true) ∧
    r.env.schedule.length = 16 + 1 := by decide

theorem test_witness_DividersPhaseTrace :
    let s := busyAt Ucode.usbDiv p2Derived
    let r := turns (List.replicate (dividersTrace s).length .block ++ []) [] s
    r.params.ok = true ∧ r.busy = true ∧ r.curN = 0 ∧
    r.ustep = (if r.usbEn = true then Ucode.usbDiv else Ucode.pbusDiv) ∧
    r.env.schedule = List.replicate (dividersTrace r).length .block ++ [] := by decide

/-- The run of P6: `BYPASS` mode, one oscillator, its wait ending at its first read. -/
theorem test_witness_InitRunTrace :
    let s := answering [true] [⟨false, false, false⟩]
      (turns (List.replicate 10 .block) [] (busyAt Ucode.validate p6))
    let osc : BitVec 2 → Wait Bool := fun _ => ⟨[], true⟩
    let tr := (inUse s).flatMap (fun k => oscTrace k (osc k)) ++
      commonPllTrace { s with pllResult := choiceTriple ⟨0, 0, 1⟩ } ⟨false, false, false⟩ ++ [] ++
      dividersTrace s
    s.params.ok = true ∧ s.busy = true ∧ s.ustep = Ucode.validate ∧ s.pllMode = modeBypass ∧
    Chosen s ⟨0, 0, 1⟩ ∧ CpuRateLegal s ⟨0, 0, 1⟩ ∧ UsbRateLegal s ⟨0, 0, 1⟩ ∧
    s.params.readyBypass = false ∧ (osc 0).before = [] ∧ (osc 0).last = true ∧
    s.env.oscAnswers = (inUse s).flatMap (fun k => (osc k).answers) ++ [] ∧
    s.env.pstatAnswers = [⟨false, false, false⟩] ++ [] ∧
    s.env.schedule = List.replicate (tr.length + 3) .block ++ [] := by decide +kernel

/-- The run of P2: `FIXED` mode, with one lock read before the one that ends the wait. -/
theorem test_witness_InitRunTrace_pllMode :
    let off : PStat := ⟨false, false, false⟩
    let lock := oneMore (α := PStat) ⟨true, false, false⟩ ⟨true, false, true⟩
    let conn : Wait PStat := ⟨[], ⟨true, true, true⟩⟩
    let s := answering [true] (off :: (lock.answers ++ conn.answers))
      (turns (List.replicate 23 .block) [] (busyAt Ucode.validate p2))
    let osc : BitVec 2 → Wait Bool := fun _ => ⟨[], true⟩
    let c : PllChoice := ⟨36, 1, 6⟩
    let tr := (inUse s).flatMap (fun k => oscTrace k (osc k)) ++
      commonPllTrace { s with pllResult := choiceTriple c } off ++
      pllModesTrace { s with pllResult := choiceTriple c } lock conn ++ dividersTrace s
    s.params.ok = true ∧ s.busy = true ∧ s.ustep = Ucode.validate ∧ s.pllMode ≠ modeBypass ∧
    Chosen s c ∧ CpuRateLegal s c ∧ UsbRateLegal s c ∧ s.params.readyBypass = false ∧
    ((∀ a ∈ lock.before, a.lock = false) ∧ lock.last.lock = true) ∧
    (conn.before = [] ∧ conn.last.conn = true) ∧ ((osc 0).before = [] ∧ (osc 0).last = true) ∧
    s.env.oscAnswers = (inUse s).flatMap (fun k => (osc k).answers) ++ [] ∧
    s.env.pstatAnswers = off :: (lock.answers ++ conn.answers) ++ [] ∧
    s.env.schedule = List.replicate (tr.length + 3) .block ++ [] := by decide +kernel

/-- Legality does not look at the turns, the answers or `ustep`. -/
theorem test_witness_InitRunTrace_configLegal :
    ConfigLegal (answering [true] [] (turns [] [] (busyAt Ucode.validate p2))) := by
  constructor <;> decide

/-! ### A fair run -/

/-- The state a step answers; a stopped machine stays. -/
def nextOf (s : State) : State :=
  match step s with
  | .next t => t
  | .fault _ => s
  | .refused _ => s

/-- P2 at `U_CACHE`; the host has no access waiting, and its turn comes before the block's. -/
def fairRun : Nat → State
  | 0 => turns [.host, .block] [] p2AtCache
  | n + 1 => nextOf (fairRun n)

/-- At rest with no host access waiting, whatever turn comes. -/
def Quiet (s : State) : Prop := s.params.ok = true ∧ s.busy = false ∧ s.env.hostQueue = []

theorem quiet_step {s : State} (h : Quiet s) : step s = .next (nextOf s) ∧ Quiet (nextOf s) := by
  obtain ⟨hok, hb, hq⟩ := h
  obtain ⟨e, he, heq⟩ := popTurn_eq s
  rw [hq] at heq
  have hs : ∃ t, step s = .next t ∧ Quiet t := by
    unfold step stepWith
    rw [if_pos hok, he]
    cases nextTurn s with
    | host => exact ⟨{ s with env := e }, by simp [hostTurn, heq], hok, hb, heq⟩
    | block => exact ⟨{ s with env := e }, by simp [blockTurn, hb], hok, hb, heq⟩
    | reset => exact ⟨_, rfl, hok, rfl, heq⟩
  obtain ⟨t, ht, hqt⟩ := hs
  have hn : nextOf s = t := by simp [nextOf, ht]
  rw [hn]
  exact ⟨ht, hqt⟩

theorem fairRun_quiet : ∀ n, Quiet (fairRun (n + 2))
  | 0 => ⟨by decide, by decide, by decide⟩
  | n + 1 => (quiet_step (fairRun_quiet n)).2

theorem fairRun_run : IsRun fairRun
  | 0 => rfl
  | 1 => rfl
  | n + 2 => (quiet_step (fairRun_quiet n)).1

theorem fairRun_fair : WeaklyFair fairRun := by
  intro n h
  have h := h (n + 2) (by omega)
  rw [(fairRun_quiet n).2.1] at h
  cases h

theorem test_witness_BusyBlockEventuallySteps :
    FairRun fairRun ∧ ControlInv (fairRun 0) ∧ (fairRun 0).busy = true :=
  ⟨⟨fairRun_run, fairRun_fair⟩, by constructor <;> decide, by decide⟩

end Sys2Proof.Tests
end

/-! PROOFS. The statements of 00_scope.md. First what a host's turn and a micro-step can do, then
the search's contract, then the obligations. -/

namespace Sys2Proof.Proofs

open Sys2Proof.Machine Sys2Proof.Safety

/-! ### What a host's turn leaves unchanged -/

/-- The elements that no host access writes agree in both states: the parameters, the status that the
micro-steps keep, their results, the hidden elements and the port trace (R25, R46, R65). -/
structure HostFrame (s t : State) : Prop where
  params : t.params = s.params
  initDone : t.initDone = s.initDone
  halted : t.halted = s.halted
  seqState : t.seqState = s.seqState
  fault : t.fault = s.fault
  fatalO : t.fatalO = s.fatalO
  pllResult : t.pllResult = s.pllResult
  oscEnabled : t.oscEnabled = s.oscEnabled
  oscStable : t.oscStable = s.oscStable
  rate : t.rate = s.rate
  curK : t.curK = s.curK
  curN : t.curN = s.curN
  feedRet : t.feedRet = s.feedRet
  en0 : t.en0 = s.en0
  conn0 : t.conn0 = s.conn0
  trace : t.trace = s.trace

/-- The states differ in nothing but `CERR` and what stands outside the block. -/
def SameButCerr (s t : State) : Prop := ∃ c e, t = { s with cerr := c, env := e }

/-- All that a host's turn can do to the block: write `CERR` only, or, at a block that is neither
halted nor busy, write what a host may write. -/
def HostEffect (s t : State) : Prop :=
  SameButCerr s t ∨ (s.halted = false ∧ s.busy = false ∧ HostFrame s t)

theorem HostFrame.trans {s t u : State} (h : HostFrame s t) (h' : HostFrame t u) :
    HostFrame s u where
  params := h'.params.trans h.params
  initDone := h'.initDone.trans h.initDone
  halted := h'.halted.trans h.halted
  seqState := h'.seqState.trans h.seqState
  fault := h'.fault.trans h.fault
  fatalO := h'.fatalO.trans h.fatalO
  pllResult := h'.pllResult.trans h.pllResult
  oscEnabled := h'.oscEnabled.trans h.oscEnabled
  oscStable := h'.oscStable.trans h.oscStable
  rate := h'.rate.trans h.rate
  curK := h'.curK.trans h.curK
  curN := h'.curN.trans h.curN
  feedRet := h'.feedRet.trans h.feedRet
  en0 := h'.en0.trans h.en0
  conn0 := h'.conn0.trans h.conn0
  trace := h'.trace.trans h.trace

theorem SameButCerr.refl (s : State) : SameButCerr s s := ⟨s.cerr, s.env, rfl⟩

theorem SameButCerr.trans {s t u : State} (h : SameButCerr s t) (h' : SameButCerr t u) :
    SameButCerr s u := by
  obtain ⟨_, _, rfl⟩ := h
  obtain ⟨c, e, rfl⟩ := h'
  exact ⟨c, e, rfl⟩

theorem SameButCerr.hostFrame {s t : State} (h : SameButCerr s t) : HostFrame s t := by
  obtain ⟨_, _, rfl⟩ := h
  constructor <;> rfl

theorem SameButCerr.busy {s t : State} (h : SameButCerr s t) : t.busy = s.busy := by
  obtain ⟨_, _, rfl⟩ := h
  rfl

theorem SameButCerr.ustep {s t : State} (h : SameButCerr s t) : t.ustep = s.ustep := by
  obtain ⟨_, _, rfl⟩ := h
  rfl

theorem SameButCerr.of_env (s : State) (e : Environment) : SameButCerr s { s with env := e } :=
  ⟨s.cerr, e, rfl⟩

theorem SameButCerr.of_reject (c : CmdError) (s : State) : SameButCerr s (reject c s) :=
  ⟨c, s.env, rfl⟩

theorem HostEffect.hostFrame {s t : State} (h : HostEffect s t) : HostFrame s t := by
  obtain h | ⟨-, -, h⟩ := h
  · exact h.hostFrame
  · exact h

theorem HostEffect.of_busy {s t : State} (h : HostEffect s t) (hb : s.busy = true) :
    SameButCerr s t := by
  obtain h | ⟨-, hidle, -⟩ := h
  · exact h
  · simp [hb] at hidle

/-- What stands outside the block does not matter to what a host's turn does to it. -/
theorem HostEffect.of_env {s t : State} {e : Environment} (h : HostEffect { s with env := e } t) :
    HostEffect s t := by
  obtain h | ⟨hh, hb, h⟩ := h
  · exact .inl ((SameButCerr.of_env s e).trans h)
  · exact .inr ⟨hh, hb, (SameButCerr.of_env s e).hostFrame.trans h⟩

theorem storeReg_hostFrame (r : Reg) (v : Word) (s : State) : HostFrame s (storeReg r v s) := by
  cases r <;> constructor <;> rfl

theorem querySearch_hostFrame (s : State) : HostFrame s (querySearch s) := by
  unfold querySearch
  split <;> constructor <;> rfl

theorem queryFixed_hostFrame (s : State) : HostFrame s (queryFixed s) := by
  unfold queryFixed
  split <;> constructor <;> rfl

theorem acceptCommand_effect (illegal reinit : Bool) {body : State → State}
    (hbody : ∀ u, HostFrame u (body u)) (s : State) :
    HostEffect s (acceptCommand illegal reinit body s) := by
  obtain ⟨c, hc, -⟩ | ⟨hh, hb, -, -, ha⟩ := acceptCommand_cases illegal reinit body s
  · exact hc ▸ .inl (.of_reject c s)
  · have hcleared : HostFrame s { s with cerr := .none } :=
      (SameButCerr.of_reject .none s).hostFrame
    exact ha ▸ .inr ⟨hh, hb, hcleared.trans (hbody _)⟩

theorem writeCfg_effect (r : Reg) (v : Word) (s : State) : HostEffect s (writeCfg r v s) := by
  obtain ⟨c, hc, -⟩ | ⟨hh, hb, -, hw⟩ := writeCfg_cases r v s
  · exact hc ▸ .inl (.of_reject c s)
  · exact hw ▸ .inr ⟨hh, hb, storeReg_hostFrame r v s⟩

theorem writeQry_effect (r : Reg) (v : Word) (s : State) : HostEffect s (writeQry r v s) := by
  obtain ⟨c, hc, -⟩ | ⟨hh, hb, hw⟩ := writeQry_cases r v s
  · exact hc ▸ .inl (.of_reject c s)
  · exact hw ▸ .inr ⟨hh, hb, storeReg_hostFrame r v s⟩

/-- A word written to `CMD` decodes to commands only, never to a micro-step (R17, R73). -/
theorem decodeCmd_format {w : Word} {i : Instr} (h : decodeCmd w = .ok i) : i.format = .cmd32 := by
  obtain ⟨-, ⟨rfl, -⟩ | ⟨rfl, -⟩ | ⟨rfl, -⟩ | ⟨rfl, -⟩ | ⟨rfl, -⟩⟩ := decodeCmd_ok h <;> rfl

/-- Every command passes through acceptance (R125), and its body writes only what a host may. -/
theorem exec_command_effect {i : Instr} {s t : State} (hi : i.format = .cmd32)
    (h : exec i s = .next t) : HostEffect s t := by
  cases i with
  | nop =>
    obtain rfl := Host.Outcome.next.inj h
    exact acceptCommand_effect _ _ (fun u => (SameButCerr.refl u).hostFrame) s
  | init =>
    obtain rfl := Host.Outcome.next.inj h
    exact acceptCommand_effect _ _ (fun u => by constructor <;> rfl) s
  | synth =>
    obtain rfl := Host.Outcome.next.inj h
    exact acceptCommand_effect _ _ (fun u => by constructor <;> rfl) s
  | checkFixed =>
    obtain rfl := Host.Outcome.next.inj h
    exact acceptCommand_effect _ _ queryFixed_hostFrame s
  | getRate d =>
    obtain rfl := Host.Outcome.next.inj h
    exact acceptCommand_effect _ _ (fun u => by constructor <;> rfl) s
  | _ => cases hi

/-- All that the host's turn can do (R58, R65, R125). -/
theorem step_host_effect {s t : State} (ht : nextTurn s = .host) (h : step s = .next t) :
    HostEffect s t := by
  obtain ⟨-, ⟨hr, -⟩ | ⟨-, e, rfl⟩ | ⟨hb, -⟩ | ⟨-, w, i, e, -, hd, hx⟩ | ⟨-, e, rfl⟩ |
    ⟨-, r, v, _, e, -, -, -, rfl⟩ | ⟨-, r, v, _, e, -, -, -, rfl⟩⟩ := step_cases h
  · simp [ht] at hr
  · exact .inl (.of_env s e)
  · simp [ht] at hb
  · exact (exec_command_effect (decodeCmd_format hd) hx).of_env
  · exact (acceptCommand_effect true false (fun u => (SameButCerr.refl u).hostFrame) _).of_env
  · exact (writeCfg_effect r v _).of_env
  · exact (writeQry_effect r v _).of_env

/-! ### The turns of the reset input and of the block -/

/-- A reset turn leaves the reset state under the same parameters (R150). -/
theorem step_reset {s t : State} (ht : nextTurn s = .reset) (h : step s = .next t) :
    ∃ e, t = { State.resetWith s.params with env := e } := by
  obtain ⟨-, ⟨-, hreset⟩ | ⟨hn, -⟩ | ⟨hb, -⟩ | ⟨hh, -⟩ | ⟨hh, -⟩ | ⟨hh, -⟩ | ⟨hh, -⟩⟩ :=
    step_cases h
  · exact hreset
  · exact absurd ht hn
  · simp [ht] at hb
  all_goals simp [ht] at hh

/-- All that the block's turn can do: nothing to the block, or, when `BUSY = 1`, the micro-step that
`ustep` holds (R128). -/
theorem step_block_cases {s t : State} (ht : nextTurn s = .block) (h : step s = .next t) :
    (∃ e, t = { s with env := e }) ∨
    (s.busy = true ∧
      ∃ i e, decodeUstep s.ustep = .ok i ∧ exec i { s with env := e } = .next t) := by
  obtain ⟨-, ⟨hr, -⟩ | ⟨-, e, rfl⟩ | ⟨-, hb, i, e, hd, hx⟩ | ⟨hh, -⟩ | ⟨hh, -⟩ | ⟨hh, -⟩ |
    ⟨hh, -⟩⟩ := step_cases h
  · simp [ht] at hr
  · exact .inl ⟨e, rfl⟩
  · exact .inr ⟨hb, i, e, hd, hx⟩
  all_goals simp [ht] at hh

theorem step_of_block {s : State} (hok : s.params.ok = true) (ht : nextTurn s = .block) :
    step s = blockTurn exec (popTurn s) := by
  simp [step, stepWith, hok, ht]

@[simp] theorem popTurn_busy (s : State) : (popTurn s).busy = s.busy := by
  obtain ⟨e, he, -⟩ := popTurn_eq s
  rw [he]

@[simp] theorem popTurn_ustep (s : State) : (popTurn s).ustep = s.ustep := by
  obtain ⟨e, he, -⟩ := popTurn_eq s
  rw [he]

theorem blockTurn_of_ok {run : Instr → State → Result} {s : State} {i : Instr}
    (hb : s.busy = true) (hd : decodeUstep s.ustep = .ok i) : blockTurn run s = run i s := by
  simp [blockTurn, hb, hd]

theorem blockTurn_of_error {run : Instr → State → Result} {s : State} {e : DecodeError}
    (hb : s.busy = true) (hd : decodeUstep s.ustep = .error e) :
    blockTurn run s = .refused (.noSuchMicroStep s.ustep) := by
  simp [blockTurn, hb, hd]

/-- The codes of R79 decode to no micro-step. -/
theorem decodeUstep_reserved (u : BitVec 6) (h : 0x15 ≤ u.toNat) :
    ∃ e, decodeUstep u = .error e := by
  have all : ∀ u : BitVec 6, 0x15 ≤ u.toNat → (decodeUstep u).toOption = none := by decide
  have hnone := all u h
  cases hd : decodeUstep u with
  | ok i => simp [hd, Except.toOption] at hnone
  | error e => exact ⟨e, rfl⟩

/-! ### The port operation of an instruction -/

/-- The one port operation an instruction issues, a read together with its answer; commands and the
micro-steps that only compute issue none (R60, R65). -/
def portOp (s : State) : Instr → Option PortEvent
  | .uOscEn => some (.oscEn s.curK)
  | .uOscPoll => some (.oscStat s.curK (oscStatAnswer s))
  | .uPstatSample => some (.pstat (pstatAnswer s))
  | .uDisconnect => some (.pcon s.en0 false)
  | .uDisable => some (.pcon false false)
  | .uSrcSel => some (.clkSrc s.clkSrc)
  | .uCpuDiv => some (.cpuDiv s.pllResult.d)
  | .uCfg => some (.pcfg s.pllResult.m s.pllResult.n)
  | .uEnable => some (.pcon true false)
  | .uLockPoll => some (.pstat (pstatAnswer s))
  | .uConnect => some (.pcon true true)
  | .uConnPoll => some (.pstat (pstatAnswer s))
  | .uFeedAa => some (.feed 0xAA)
  | .uFeed55 => some (.feed 0x55)
  | .uUsbDiv => some (.usbDiv s.usbDiv)
  | .uPbusDiv => some (.pbusDiv s.curN (pbusDivOf s s.curN.toNat))
  | .nop | .init | .synth | .checkFixed | .getRate _ | .uIdle | .uValidate | .uDerive | .uCache
  | .uQuerySynth => none

/-- All that `U_DERIVE` can do: halt, or write `PLL_RESULT` and go on (R134). -/
theorem deriveStep_cases (s : State) :
    (∃ code, deriveStep s = raiseFatal code s) ∨
    ∃ c, deriveStep s = goto Ucode.pstatSample { s with pllResult := choiceTriple c } := by
  unfold deriveStep
  split
  · exact .inl ⟨_, rfl⟩
  · split
    · exact .inl ⟨_, rfl⟩
    · exact .inr ⟨_, rfl⟩

/-- All that `U_DERIVE` can do as an instruction. -/
theorem exec_uDerive_next {s t : State} (h : exec .uDerive s = .next t) : t = deriveStep s := by
  simp only [exec, execUDerive] at h
  split at h
  · cases h
  · exact (Host.Outcome.next.inj h).symm

/-- `exec` appends the instruction's port operation to the trace and nothing else (R61, R62). -/
theorem exec_trace {i : Instr} {s t : State} (h : exec i s = .next t) :
    t.trace = s.trace ++ (portOp s i).toList := by
  cases i with
  | nop | init | synth | checkFixed | getRate =>
    simpa [portOp] using (exec_command_effect rfl h).hostFrame.trace
  | uIdle | uCache =>
    obtain rfl := Host.Outcome.next.inj h
    simp [portOp]
  | uQuerySynth =>
    obtain rfl := Host.Outcome.next.inj h
    simpa [portOp] using (querySearch_hostFrame s).trace
  | uValidate =>
    obtain rfl := Host.Outcome.next.inj h
    split <;> simp [portOp, raiseFatal]
  | uDerive =>
    obtain rfl := exec_uDerive_next h
    obtain ⟨code, hd⟩ | ⟨c, hd⟩ := deriveStep_cases s <;> simp [hd, portOp, raiseFatal]
  | uOscPoll =>
    obtain rfl := Host.Outcome.next.inj h
    split
    · unfold oscStableNow
      split <;> rfl
    · rfl
  | uCpuDiv | uPbusDiv | uLockPoll | uConnPoll | uFeed55 =>
    obtain rfl := Host.Outcome.next.inj h
    split <;> rfl
  | uOscEn | uPstatSample | uDisconnect | uDisable | uSrcSel | uCfg | uEnable | uConnect | uFeedAa
  | uUsbDiv =>
    obtain rfl := Host.Outcome.next.inj h
    rfl

/-! ### The bits only reset clears -/

/-- The parameters agree, and no bit that only reset clears has fallen (R16, R28, R34). -/
structure Sticky (s t : State) : Prop where
  params : t.params = s.params
  initDone : s.initDone = true → t.initDone = true
  halted : s.halted = true → t.halted = true
  oscEnabled : ∀ k, s.oscEnabled.getLsbD k = true → t.oscEnabled.getLsbD k = true
  oscStable : ∀ k, s.oscStable.getLsbD k = true → t.oscStable.getLsbD k = true

theorem Sticky.of_eq {s t : State} (hp : t.params = s.params) (hi : t.initDone = s.initDone)
    (hh : t.halted = s.halted) (he : t.oscEnabled = s.oscEnabled)
    (hs : t.oscStable = s.oscStable) : Sticky s t :=
  ⟨hp, by simp [hi], by simp [hh], by simp [he], by simp [hs]⟩

theorem HostFrame.sticky {s t : State} (h : HostFrame s t) : Sticky s t :=
  .of_eq h.params h.initDone h.halted h.oscEnabled h.oscStable

theorem Sticky.trans {s t u : State} (h : Sticky s t) (h' : Sticky t u) : Sticky s u where
  params := h'.params.trans h.params
  initDone := h'.initDone ∘ h.initDone
  halted := h'.halted ∘ h.halted
  oscEnabled k := h'.oscEnabled k ∘ h.oscEnabled k
  oscStable k := h'.oscStable k ∘ h.oscStable k

theorem raiseFatal_sticky (code : FaultCode) (s : State) : Sticky s (raiseFatal code s) :=
  ⟨rfl, id, fun _ => rfl, fun _ => id, fun _ => id⟩

theorem setBit4_keeps (x : BitVec 4) (j : BitVec 2) (k : Nat) (h : x.getLsbD k = true) :
    (setBit4 x j).getLsbD k = true := by
  simp [setBit4, h]

theorem oscStableNow_sticky (s : State) : Sticky s (oscStableNow s) := by
  unfold oscStableNow
  split <;> exact ⟨rfl, id, id, fun _ => id, fun k => setBit4_keeps _ _ k⟩

/-- Each instruction keeps the sticky bits: `U_VALIDATE` and `U_DERIVE` may set `HALTED`, `U_OSC_EN`
and `U_OSC_POLL` set a bit of `OSC_STATUS`, `U_CACHE` sets `INIT_DONE`, and no other writes them. -/
theorem exec_sticky {i : Instr} {s t : State} (h : exec i s = .next t) : Sticky s t := by
  cases i with
  | nop | init | synth | checkFixed | getRate => exact (exec_command_effect rfl h).hostFrame.sticky
  | uValidate =>
    obtain rfl := Host.Outcome.next.inj h
    split
    · exact raiseFatal_sticky _ s
    · exact .of_eq rfl rfl rfl rfl rfl
  | uDerive =>
    obtain rfl := exec_uDerive_next h
    obtain ⟨code, hd⟩ | ⟨c, hd⟩ := deriveStep_cases s
    · exact hd ▸ raiseFatal_sticky code s
    · exact hd ▸ .of_eq rfl rfl rfl rfl rfl
  | uOscEn =>
    obtain rfl := Host.Outcome.next.inj h
    exact ⟨rfl, id, id, fun k => setBit4_keeps _ _ k, fun _ => id⟩
  | uOscPoll =>
    obtain rfl := Host.Outcome.next.inj h
    split
    · have hread : Sticky s (afterOscStat s.curK s) := .of_eq rfl rfl rfl rfl rfl
      exact hread.trans (oscStableNow_sticky _)
    · exact .of_eq rfl rfl rfl rfl rfl
  | uCache =>
    obtain rfl := Host.Outcome.next.inj h
    exact ⟨rfl, fun _ => rfl, id, fun _ => id, fun _ => id⟩
  | uQuerySynth =>
    obtain rfl := Host.Outcome.next.inj h
    exact (querySearch_hostFrame s).sticky.trans (.of_eq rfl rfl rfl rfl rfl)
  | uCpuDiv | uPbusDiv | uLockPoll | uConnPoll | uFeed55 =>
    obtain rfl := Host.Outcome.next.inj h
    split <;> exact .of_eq rfl rfl rfl rfl rfl
  | uIdle | uPstatSample | uDisconnect | uDisable | uSrcSel | uCfg | uEnable | uConnect | uFeedAa
  | uUsbDiv =>
    obtain rfl := Host.Outcome.next.inj h
    exact .of_eq rfl rfl rfl rfl rfl

/-- Every step but a reset keeps the sticky bits. -/
theorem step_sticky {s t : State} (hn : NotReset s) (h : step s = .next t) : Sticky s t := by
  cases ht : nextTurn s with
  | reset => exact absurd ht hn
  | host => exact (step_host_effect ht h).hostFrame.sticky
  | block =>
    obtain ⟨e, rfl⟩ | ⟨-, i, e, -, hx⟩ := step_block_cases ht h
    · exact (SameButCerr.of_env s e).hostFrame.sticky
    · exact (SameButCerr.of_env s e).hostFrame.sticky.trans (exec_sticky hx)

/-! ### The search's contract -/

theorem searchDivider_eq_some {num fout n d : Nat} (h : searchDivider num fout n = some d) :
    (2 ≤ d ∧ d ≤ 255) ∧ num = fout * d * n :=
  ⟨mem_ascending.mp (List.mem_of_find?_eq_some h), by simpa using List.find?_some h⟩

/-- What `SEARCH` answers satisfies the contract (R82, R85 item 1). -/
theorem search_match {p : Params} {fin fout : Nat} {c : PllChoice}
    (h : search p fin fout = some c) : Match p fin fout c := by
  obtain ⟨n, hn, hloop⟩ := List.exists_of_findSome?_eq_some h
  obtain ⟨m, hm, hpair⟩ := List.exists_of_findSome?_eq_some hloop
  unfold searchPair at hpair
  split at hpair
  · rename_i hrange
    obtain ⟨d, hd, rfl⟩ := Option.map_eq_some_iff.mp hpair
    obtain ⟨hdRange, hexact⟩ := searchDivider_eq_some hd
    exact ⟨mem_ascending.mp hn, mem_descending.mp hm, hdRange, fccoInRange_iff.mp hrange, hexact⟩
  · cases hpair

theorem toNat_ofNat_of_lt {w x : Nat} (h : x < 2 ^ w) : (BitVec.ofNat w x).toNat = x :=
  (BitVec.toNat_ofNat x w).trans (Nat.mod_eq_of_lt h)

/-- No field of a match is cut when it is stored (R9, R12). -/
theorem choiceTriple_toNat_of_match {p : Params} {fin fout : Nat} {c : PllChoice}
    (hc : Match p fin fout c) (hp : p.Facts) :
    (choiceTriple c).m.toNat = c.m ∧ (choiceTriple c).n.toNat = c.n ∧
      (choiceTriple c).d.toNat = c.d := by
  have hm : c.m < 2 ^ 16 := by have := hc.mRange; have := hp.mMax; omega
  have hn : c.n < 2 ^ 8 := by have := hc.nRange; have := hp.nMax; omega
  have hd : c.d < 2 ^ 8 := by have := hc.dRange; omega
  exact ⟨toNat_ofNat_of_lt hm, toNat_ofNat_of_lt hn, toNat_ofNat_of_lt hd⟩

/-- The exact `Fcco` of a match is `fout * D`, and at most `FCCO_MAX` (R82, R90). -/
theorem fcco_of_match {p : Params} {fin fout : Nat} {c : PllChoice} (hc : Match p fin fout c)
    (hp : p.Facts) : 2 * fin * c.m / c.n = fout * c.d ∧ fout * c.d ≤ p.fccoMax := by
  have hn : 0 < c.n := by have := hc.nRange; have := hp.nMin; omega
  have hmax : fout * c.d * c.n ≤ p.fccoMax * c.n := hc.exact ▸ hc.fccoRange.2
  rw [hc.exact]
  exact ⟨Nat.mul_div_cancel _ hn, Nat.le_of_mul_le_mul_right hmax hn⟩

/-! ### Runs -/

/-- While no turn but the host's comes, a busy block keeps everything but `CERR` (R155). -/
theorem run_sameButCerr_of_host {r : Nat → State} {n : Nat} (hrun : IsRun r)
    (hb : (r n).busy = true)
    (hhost : ∀ m, n ≤ m → SameButCerr (r n) (r m) → nextTurn (r m) = .host) :
    ∀ m, n ≤ m → SameButCerr (r n) (r m) := by
  intro m hm
  induction m, hm using Nat.le_induction with
  | base => exact .refl _
  | succ m hm ih =>
    have heffect := step_host_effect (hhost m hm ih) (hrun m)
    exact ih.trans (heffect.of_busy (ih.busy.trans hb))

/-- In a fair run a busy block, unchanged but for `CERR`, meets a turn that is not the
host's (R15). -/
theorem fairRun_turn_comes {r : Nat → State} {n : Nat} (hr : FairRun r)
    (hb : (r n).busy = true) :
    ∃ m, n ≤ m ∧ SameButCerr (r n) (r m) ∧ nextTurn (r m) ≠ .host := by
  by_contra hnone
  have hhost : ∀ m, n ≤ m → SameButCerr (r n) (r m) → nextTurn (r m) = .host := by
    intro m hm hsame
    by_contra ht
    exact hnone ⟨m, hm, hsame, ht⟩
  have hsame := run_sameButCerr_of_host hr.run hb hhost
  obtain ⟨m, hm, ht⟩ := hr.fair n (fun m hm => (hsame m hm).busy.trans hb)
  exact hnone ⟨m, hm, hsame m hm, by simp [ht]⟩

/-! ### The obligations -/

/-- Settles O26: the search's answer is a match, so its fields and its `Fcco` fit the registers. -/
theorem querySynthResult : Obligations.QuerySynthResult := by
  intro s hok
  refine ⟨fun c hc => ?_, fun hnone => ?_⟩
  · have hmatch := search_match hc
    have hfacts := Params.ok_facts hok
    obtain ⟨hm, hn, hd⟩ := choiceTriple_toNat_of_match hmatch hfacts
    obtain ⟨hfcco, hle⟩ := fcco_of_match hmatch hfacts
    have hfits : s.synFout.toNat * c.d < 2 ^ 32 := by
      have hword : s.params.fccoMax ≤ 4294967295 := hfacts.fccoMax
      omega
    refine ⟨choiceTriple c, BitVec.ofNat 32 (s.synFout.toNat * c.d), hm, hn, hd,
      toNat_ofNat_of_lt hfits, ?_⟩
    simp [exec, execUQuerySynth, querySearch, hc, querySuccess, goto, hfcco]
  · simp [exec, execUQuerySynth, querySearch, hnone, queryFailure, goto]

/-- Settles O41: a host's turn keeps the trace, and a micro-step appends its one port operation. -/
theorem onePortOperationPerStep : Obligations.OnePortOperationPerStep := by
  intro s t hn h
  cases ht : nextTurn s with
  | reset => exact absurd ht hn
  | host => exact ⟨[], by simpa using (step_host_effect ht h).hostFrame.trace, by simp, by simp⟩
  | block =>
    obtain ⟨e, rfl⟩ | ⟨-, i, e, -, hx⟩ := step_block_cases ht h
    · exact ⟨[], by simp, by simp, by simp⟩
    · exact ⟨(portOp _ i).toList, by simpa using exec_trace hx, Option.length_toList_le, by simp⟩

/-- Settles O43: a reset keeps the parameters, and every other step is sticky. -/
theorem stickyBits : Obligations.StickyBits := by
  intro s t h
  by_cases hreset : nextTurn s = .reset
  · obtain ⟨e, rfl⟩ := step_reset hreset h
    exact ⟨rfl, fun hn => absurd hreset hn⟩
  · obtain ⟨hp, hi, hh, he, hs⟩ := step_sticky hreset h
    exact ⟨hp, fun _ => ⟨hi, hh, he, hs⟩⟩

/-- Settles O60: were every turn from `n` on the host's, the block would stay busy for ever, and
fairness would give it a turn. -/
theorem busyBlockEventuallySteps : Obligations.BusyBlockEventuallySteps := by
  intro r n hr hinv hb
  obtain ⟨m, hm, hsame, hturn⟩ := fairRun_turn_comes hr hb
  refine ⟨m, hm, hsame, ?_⟩
  cases ht : nextTurn (r m) with
  | host => exact absurd ht hturn
  | reset => exact .inl rfl
  | block =>
    have hok : (r m).params.ok = true := hsame.hostFrame.params ▸ hinv.paramsOk
    obtain ⟨i, hd⟩ := decodeUstep_held _ hinv.codeHeld
    have hexec : step (r m) = exec i (popTurn (r m)) := by
      rw [step_of_block hok ht]
      exact blockTurn_of_ok (by simp [hsame.busy, hb]) (by simp [hsame.ustep, hd])
    exact .inr ⟨rfl, i, decodeUstep_code hd, hexec ▸ hr.run m⟩

/-- Settles O52: each stop is the branch of the step, or of `U_DERIVE`, that its condition
selects. -/
theorem stopsAreNamed : Obligations.StopsAreNamed := by
  refine ⟨fun s hbad => ?_, fun s hmode => ?_, fun s sched hok hsched hb hcode => ?_⟩
  · simp [step, stepWith, hbad]
  · simp [exec, execUDerive, hmode]
  · have ht : nextTurn s = .block := by simp [nextTurn, hsched]
    obtain ⟨e, hd⟩ := decodeUstep_reserved _ hcode
    rw [step_of_block hok ht]
    simpa using blockTurn_of_error (run := exec) (s := popTurn s) (by simpa using hb)
      (by simpa using hd)

end Sys2Proof.Proofs

/-! PROOFS. The statements of 10_state.md. First who owns which register, what a host's turn and a
micro-step can do to the controller, and the data, the pair and the sequencer's invariants; then the
result registers, the oscillators, the reset state and the register window; then the obligations. -/

namespace Sys2Proof.Proofs

open Sys2Proof.Machine Sys2Proof.Safety

/-! ### Which instruction owns which register -/

/-- The part of a state that no instruction writes: its parameters and its `CFG` registers, with
everything else at its reset value (R16, R25). -/
def configView (s : State) : State :=
  { State.resetWith s.params with
    oscFreq := s.oscFreq, oscEn := s.oscEn, clkSrc := s.clkSrc, pllMode := s.pllMode
    desiredFreq := s.desiredFreq, fixedMN := s.fixedMN, cpuDiv := s.cpuDiv, usbEn := s.usbEn
    usbDiv := s.usbDiv, pbusDiv := s.pbusDiv }

theorem pllMode_of_configView {s t : State} (h : configView t = configView s) :
    t.pllMode = s.pllMode :=
  (congrArg State.pllMode h :)

theorem params_of_configView {s t : State} (h : configView t = configView s) :
    t.params = s.params :=
  (congrArg State.params h :)

/-- What an instruction may write of the registers that have an owner: each is kept, or the
instruction is its owner; the parameters and the configuration have none (R25, R31 to R33, R45). -/
structure OwnersOnly (i : Instr) (s t : State) : Prop where
  config : configView t = configView s
  initDone : i = .uCache ∨ t.initDone = s.initDone
  rate : i = .uCache ∨ t.rate = s.rate
  pllResult : i = .uDerive ∨ t.pllResult = s.pllResult
  rateOut : (∃ d, i = .getRate d) ∨ t.rateOut = s.rateOut
  synthesis : i = .checkFixed ∨ i = .uQuerySynth ∨
    (t.synResult = s.synResult ∧ t.synFcco = s.synFcco)

theorem OwnersOnly.of_eq {i : Instr} {s t : State} (hc : configView t = configView s)
    (hi : t.initDone = s.initDone) (hr : t.rate = s.rate) (hl : t.pllResult = s.pllResult)
    (ho : t.rateOut = s.rateOut) (hs : t.synResult = s.synResult) (hf : t.synFcco = s.synFcco) :
    OwnersOnly i s t :=
  ⟨hc, .inr hi, .inr hr, .inr hl, .inr ho, .inr (.inr ⟨hs, hf⟩)⟩

theorem SameButCerr.ownersOnly {i : Instr} {s t : State} (h : SameButCerr s t) :
    OwnersOnly i s t := by
  obtain ⟨_, _, rfl⟩ := h
  exact .of_eq rfl rfl rfl rfl rfl rfl rfl

theorem OwnersOnly.trans {i : Instr} {s t u : State} (h : OwnersOnly i s t)
    (h' : OwnersOnly i t u) : OwnersOnly i s u where
  config := h'.config.trans h.config
  initDone := h.initDone.elim .inl fun hs => hs ▸ h'.initDone
  rate := h.rate.elim .inl fun hs => hs ▸ h'.rate
  pllResult := h.pllResult.elim .inl fun hs => hs ▸ h'.pllResult
  rateOut := h.rateOut.elim .inl fun hs => hs ▸ h'.rateOut
  synthesis := by
    obtain hi | hi | ⟨hr, hf⟩ := h.synthesis
    · exact .inl hi
    · exact .inr (.inl hi)
    · exact hr ▸ hf ▸ h'.synthesis

theorem acceptCommand_ownersOnly {i : Instr} (illegal reinit : Bool) {body : State → State}
    (hbody : ∀ u, OwnersOnly i u (body u)) (s : State) :
    OwnersOnly i s (acceptCommand illegal reinit body s) := by
  obtain ⟨c, hc, -⟩ | ⟨-, -, -, -, ha⟩ := acceptCommand_cases illegal reinit body s
  · exact hc ▸ (SameButCerr.of_reject c s).ownersOnly
  · exact ha ▸ (SameButCerr.of_reject .none s).ownersOnly.trans (hbody _)

theorem queryFixed_ownersOnly (s : State) : OwnersOnly .checkFixed s (queryFixed s) := by
  unfold queryFixed
  split <;> exact ⟨rfl, .inr rfl, .inr rfl, .inr rfl, .inr rfl, .inl rfl⟩

theorem querySearch_ownersOnly (s : State) : OwnersOnly .uQuerySynth s (querySearch s) := by
  unfold querySearch
  split <;> exact ⟨rfl, .inr rfl, .inr rfl, .inr rfl, .inr rfl, .inr (.inl rfl)⟩

/-- Every instruction writes only the registers it owns. -/
theorem exec_ownersOnly {i : Instr} {s t : State} (h : exec i s = .next t) : OwnersOnly i s t := by
  cases i with
  | nop | init | synth =>
    obtain rfl := Host.Outcome.next.inj h
    apply acceptCommand_ownersOnly
    exact fun u => .of_eq rfl rfl rfl rfl rfl rfl rfl
  | checkFixed =>
    obtain rfl := Host.Outcome.next.inj h
    exact acceptCommand_ownersOnly _ _ queryFixed_ownersOnly s
  | getRate d =>
    obtain rfl := Host.Outcome.next.inj h
    apply acceptCommand_ownersOnly
    exact fun u => ⟨rfl, .inr rfl, .inr rfl, .inr rfl, .inl ⟨d, rfl⟩, .inr (.inr ⟨rfl, rfl⟩)⟩
  | uValidate =>
    obtain rfl := Host.Outcome.next.inj h
    split <;> exact .of_eq rfl rfl rfl rfl rfl rfl rfl
  | uDerive =>
    obtain rfl := exec_uDerive_next h
    obtain ⟨code, hd⟩ | ⟨c, hd⟩ := deriveStep_cases s
    · exact hd ▸ .of_eq rfl rfl rfl rfl rfl rfl rfl
    · exact hd ▸ ⟨rfl, .inr rfl, .inr rfl, .inl rfl, .inr rfl, .inr (.inr ⟨rfl, rfl⟩)⟩
  | uOscPoll =>
    obtain rfl := Host.Outcome.next.inj h
    split
    · unfold oscStableNow
      split <;> exact .of_eq rfl rfl rfl rfl rfl rfl rfl
    · exact .of_eq rfl rfl rfl rfl rfl rfl rfl
  | uCache =>
    obtain rfl := Host.Outcome.next.inj h
    exact ⟨rfl, .inl rfl, .inl rfl, .inr rfl, .inr rfl, .inr (.inr ⟨rfl, rfl⟩)⟩
  | uQuerySynth =>
    obtain rfl := Host.Outcome.next.inj h
    exact (querySearch_ownersOnly s).trans (.of_eq rfl rfl rfl rfl rfl rfl rfl)
  | uCpuDiv | uPbusDiv | uLockPoll | uConnPoll | uFeed55 =>
    obtain rfl := Host.Outcome.next.inj h
    split <;> exact .of_eq rfl rfl rfl rfl rfl rfl rfl
  | uIdle | uOscEn | uPstatSample | uDisconnect | uDisable | uSrcSel | uCfg | uEnable | uConnect
  | uFeedAa | uUsbDiv =>
    obtain rfl := Host.Outcome.next.inj h
    exact .of_eq rfl rfl rfl rfl rfl rfl rfl

/-! ### What the predicates on the configuration read -/

/-- A legal configuration is a fact about the configuration alone. -/
theorem configLegal_congr {s t : State} (h : ConfigLegal s) (hv : configView t = configView s) :
    ConfigLegal t := by
  have hs : ConfigLegal (configView s) := { h with }
  rw [← hv] at hs
  exact { hs with }

/-- So is a legal result, with `PLL_RESULT`. -/
theorem derivedLegal_congr {s t : State} (h : DerivedLegal s)
    (hv : configView t = configView s) (hp : t.pllResult = s.pllResult) : DerivedLegal t := by
  have hs : DerivedLegal { configView s with pllResult := s.pllResult } := { h with }
  rw [← hv, ← hp] at hs
  exact { hs with }

/-- So is the agreement of the cache, with `PLL_RESULT` and `RATE`. -/
theorem cacheAgrees_congr {s t : State} (h : CacheAgrees s) (hv : configView t = configView s)
    (hp : t.pllResult = s.pllResult) (hr : t.rate = s.rate) : CacheAgrees t := by
  have hs : CacheAgrees { configView s with pllResult := s.pllResult, rate := s.rate } :=
    { h with }
  rw [← hv, ← hp, ← hr] at hs
  exact { hs with }

/-- The data invariant reads `BUSY` and `ustep` only through the phase of `INIT`. -/
theorem dataInv_congr {s t : State} (h : DataInv s) (hv : configView t = configView s)
    (hp : t.pllResult = s.pllResult) (hr : t.rate = s.rate) (hi : t.initDone = s.initDone)
    (hV : PastValidate t ↔ PastValidate s) (hD : PastDerive t ↔ PastDerive s) : DataInv t where
  validated ht := configLegal_congr (h.validated (hV.mp ht)) hv
  derived ht := derivedLegal_congr (h.derived (hD.mp ht)) hv hp
  cached ht := by
    obtain ⟨hc, hd, ha⟩ := h.cached (hi ▸ ht)
    exact ⟨configLegal_congr hc hv, derivedLegal_congr hd hv hp, cacheAgrees_congr ha hv hp hr⟩
  bootRates ht := by
    rw [hr, params_of_configView hv, h.bootRates (hi ▸ ht)]
  noResult ht hnt := by rw [hp, h.noResult (hi ▸ ht) (mt hD.mpr hnt)]

theorem controlInv_of_env {s : State} (h : ControlInv s) (e : Environment) :
    ControlInv { s with env := e } := { h with }

/-! ### The checks of `U_VALIDATE` as propositions (R130, R131) -/

theorem mem_inUse {s : State} {k : BitVec 2} : k ∈ inUse s ↔ InUse s k := by
  have hall : ∀ k : BitVec 2, k ∈ ([0, 1, 2, 3] : List (BitVec 2)) := by decide
  simp only [inUse, List.mem_filter, hall k, Bool.or_eq_true, beq_iff_eq, true_and]

theorem inUse_sorted (s : State) : (inUse s).Pairwise (fun a b => a.toNat < b.toNat) :=
  List.Pairwise.filter _ (by decide)

theorem oscInRange_iff {s : State} {k : BitVec 2} : oscInRange s k = true ↔ OscLegal s k := by
  simp [oscInRange]

theorem all_oscInRange_iff {s : State} :
    (inUse s).all (oscInRange s) = true ↔ ∀ k, InUse s k → OscLegal s k := by
  simp only [List.all_eq_true, mem_inUse, oscInRange_iff]

theorem cpuDivLegal_iff {s : State} :
    cpuDivLegal s.pllMode s.cpuDiv.toNat = true ↔ CpuDivLegal s := by
  have hmax : s.cpuDiv.toNat ≤ Config.dMax := by have := s.cpuDiv.isLt; simp [Config.dMax]; omega
  unfold cpuDivLegal
  split
  · rename_i hb
    simp [CpuDivLegal, hb, hmax]
  · split
    · rename_i hf
      simp [CpuDivLegal, hf, hmax]
    · rename_i hb hf
      exact iff_of_true rfl ⟨fun h => absurd h hb, fun h => absurd h hf⟩

theorem usbDivLegal_iff {s : State} :
    usbDivLegal s.params s.usbEn s.usbDiv.toNat = true ↔ UsbDivLegal s := by
  cases hu : s.usbEn <;> simp [usbDivLegal, UsbDivLegal, hu]

theorem pbusLegal_iff {p : Params} {n d : Nat} :
    pbusLegal p n d = true ↔ BusDivLegal p n d := by
  simp [pbusLegal, BusDivLegal, Config.pbusDivSet]
  tauto

theorem pbusAllLegal_iff {s : State} : pbusAllLegal s = true ↔ BusDivsLegal s := by
  simp only [pbusAllLegal, List.all_eq_true, List.mem_range, pbusLegal_iff]

theorem fixedFault_eq_none_iff {s : State} :
    fixedFault s = none ↔ (s.pllMode = modeFixed →
      PairLegal s.params (finOf s) s.fixedMN.m.toNat s.fixedMN.n.toNat) := by
  unfold fixedFault
  split
  · rename_i hm
    obtain ⟨hc, hr⟩ | ⟨hc, hr, hf⟩ | ⟨hc, -, hf⟩ :=
      checkFixedPair_cases s.params (finOf s) s.fixedMN.m.toNat s.fixedMN.n.toNat
    · simp only [hc]
      exact iff_of_false nofun fun h => hr (h hm).1
    · simp only [hc]
      exact iff_of_true trivial fun _ => ⟨hr, hf⟩
    · simp only [hc]
      exact iff_of_false nofun fun h => hf (h hm).2
  · rename_i hm
    exact iff_of_true rfl fun h => absurd h hm

/-- `U_VALIDATE` finds no fault exactly in a legal configuration (R131). -/
theorem validateFault_eq_none_iff {s : State} : validateFault s = none ↔ ConfigLegal s := by
  have hrules : ConfigLegal s ↔ s.pllMode ≠ modeReserved ∧ (∀ k, InUse s k → OscLegal s k) ∧
      CpuDivLegal s ∧ UsbDivLegal s ∧ BusDivsLegal s ∧ (s.pllMode = modeFixed →
        PairLegal s.params (finOf s) s.fixedMN.m.toNat s.fixedMN.n.toNat) :=
    ⟨fun ⟨a, b, c, d, e, f⟩ => ⟨a, b, c, d, e, f⟩, fun ⟨a, b, c, d, e, f⟩ => ⟨a, b, c, d, e, f⟩⟩
  rw [hrules, ← all_oscInRange_iff, ← cpuDivLegal_iff, ← usbDivLegal_iff, ← pbusAllLegal_iff,
    ← fixedFault_eq_none_iff]
  unfold validateFault
  split_ifs <;> simp_all

/-! ### The choice of `U_DERIVE` and its rate limits (R111, R116, R134) -/

theorem pllClock_eq (s : State) (c : PllChoice) :
    pllClock s.pllMode (finOf s) c.m c.n = (clockNum s c, clockDen s c) := by
  unfold pllClock clockNum clockDen
  split <;> rfl

theorem chosenTriple_eq_some_iff {s : State} (hm : s.pllMode ≠ modeReserved) {c : PllChoice} :
    chosenTriple s = some c ↔ Chosen s c := by
  have hmodes : ∀ m : BitVec 2, m ≠ modeReserved → m = modeBypass ∨ m = modeSynth ∨ m = modeFixed :=
    by decide
  obtain hmode | hmode | hmode := hmodes _ hm <;>
    simp [chosenTriple, Chosen, hmode, eq_comm]

theorem mode_of_chosen {s : State} {c : PllChoice} (h : Chosen s c) : s.pllMode ≠ modeReserved := by
  obtain ⟨hm, -⟩ | ⟨hm, -⟩ | ⟨hm, -⟩ := h <;> simp [hm]

theorem rateFault_eq_none_iff {s : State} {c : PllChoice} :
    rateFault s c = none ↔ CpuRateLegal s c ∧ UsbRateLegal s c := by
  simp only [rateFault, pllClock_eq]
  split_ifs <;> simp_all [CpuRateLegal, UsbRateLegal]

/-- No field of a choice is cut when it is stored (R9, R12). -/
theorem choiceTriple_toNat_of_chosen {s : State} {c : PllChoice} (h : Chosen s c)
    (hp : s.params.Facts) :
    (choiceTriple c).m.toNat = c.m ∧ (choiceTriple c).n.toNat = c.n ∧
      (choiceTriple c).d.toNat = c.d := by
  obtain ⟨-, rfl⟩ | ⟨-, hs⟩ | ⟨-, rfl⟩ := h
  · simp [choiceTriple]
  · exact choiceTriple_toNat_of_match (search_match hs) hp
  · simp [choiceTriple]

/-- What a passing `U_DERIVE` writes is read back as the choice it made. -/
theorem resultChoice_of_chosen {s t : State} {c : PllChoice} (h : Chosen s c)
    (hp : s.params.Facts) (ht : t.pllResult = choiceTriple c) : resultChoice t = c := by
  obtain ⟨hm, hn, hd⟩ := choiceTriple_toNat_of_chosen h hp
  simp [resultChoice, ht, hm, hn, hd]

/-- All that `U_DERIVE` can do outside the reserved mode: halt, or write a choice that meets both
rate limits. -/
theorem deriveStep_legal_cases {s : State} (hm : s.pllMode ≠ modeReserved) :
    (∃ code, deriveStep s = raiseFatal code s) ∨
    ∃ c, (Chosen s c ∧ CpuRateLegal s c ∧ UsbRateLegal s c) ∧
      deriveStep s = goto Ucode.pstatSample { s with pllResult := choiceTriple c } := by
  unfold deriveStep
  split
  · exact .inl ⟨_, rfl⟩
  · rename_i c hc
    split
    · exact .inl ⟨_, rfl⟩
    · rename_i hr
      exact .inr ⟨c, ⟨(chosenTriple_eq_some_iff hm).mp hc, rateFault_eq_none_iff.mp hr⟩, rfl⟩

theorem deriveStep_of_chosen {s : State} {c : PllChoice} (h : Chosen s c)
    (hcpu : CpuRateLegal s c) (husb : UsbRateLegal s c) :
    deriveStep s = goto Ucode.pstatSample { s with pllResult := choiceTriple c } := by
  simp [deriveStep, (chosenTriple_eq_some_iff (mode_of_chosen h)).mpr h,
    rateFault_eq_none_iff.mpr ⟨hcpu, husb⟩]

/-! ### The pair of a legal result (R49) -/

/-- In a PLL mode the pair of a legal result meets the `Fcco` invariant. -/
theorem pairLegal_of_derived {s : State} (hm : s.pllMode ≠ modeBypass) (hc : ConfigLegal s)
    (hd : DerivedLegal s) :
    PairLegal s.params (finOf s) s.pllResult.m.toNat s.pllResult.n.toNat := by
  obtain ⟨hb, -⟩ | ⟨-, hs⟩ | ⟨hf, he⟩ := hd.chosen
  · exact absurd hb hm
  · have hmatch := search_match hs
    exact ⟨⟨hmatch.mRange.1, hmatch.mRange.2, hmatch.nRange.1, hmatch.nRange.2⟩, hmatch.fccoRange⟩
  · obtain ⟨hem, hen, -⟩ := PllChoice.mk.inj he
    exact hem ▸ hen ▸ hc.pair hf

/-! ### The exact floors of the rate cache (R111, R120) -/

/-- A rate with a divisor, whose quotient fits in a word, is cached as its floor. -/
theorem rateWord_toNat {num den : Nat} (hden : 0 < den) (hfits : num ≤ den * Config.maxWord) :
    (rateWord num den).toNat = num / den := by
  have hle : num / den ≤ Config.maxWord := Nat.div_le_of_le_mul hfits
  rw [rateWord, if_neg (by omega)]
  exact toNat_ofNat_of_lt (Nat.lt_succ_of_le hle)

theorem pllClk_eq (s : State) :
    pllClk s = (clockNum s (resultChoice s), clockDen s (resultChoice s)) :=
  pllClock_eq s (resultChoice s)

/-- The divisor of the CPU clock is not 0. -/
theorem cpuDivisor_pos {s : State} (hp : s.params.Facts) (hc : ConfigLegal s)
    (hd : DerivedLegal s) : 0 < clockDen s (resultChoice s) * s.pllResult.d.toNat := by
  have hden : 0 < clockDen s (resultChoice s) := by
    unfold clockDen
    split
    · exact Nat.one_pos
    · rename_i hm
      have := (pairLegal_of_derived hm hc hd).1.2.2.1
      have := hp.nMin
      simp only [resultChoice]
      omega
  have hdiv : 0 < (resultChoice s).d := by
    obtain ⟨hb, he⟩ | ⟨-, hs⟩ | ⟨hf, he⟩ := hd.chosen
    · rw [he]
      exact hc.cpu.1 hb
    · have := (search_match hs).dRange
      omega
    · rw [he]
      have := hc.cpu.2 hf
      simp only
      omega
  exact Nat.mul_pos hden hdiv

/-- The CPU clock, and so every clock divided down from it, fits in a word. -/
theorem clockNum_fits {s : State} (hp : s.params.Facts) (hd : DerivedLegal s) :
    clockNum s (resultChoice s) ≤
      clockDen s (resultChoice s) * s.pllResult.d.toNat * Config.maxWord := by
  calc clockNum s (resultChoice s)
      ≤ s.params.maxCpuRate * clockDen s (resultChoice s) * s.pllResult.d.toNat := hd.cpuRate
    _ = clockDen s (resultChoice s) * s.pllResult.d.toNat * s.params.maxCpuRate := by ring
    _ ≤ _ := Nat.mul_le_mul_left _ hp.maxCpuRate

theorem busDivLegal_pos {p : Params} {n d : Nat} (h : BusDivLegal p n d) : 0 < d := by
  obtain rfl | rfl | rfl | rfl | ⟨rfl, -⟩ := h <;> decide

/-- On a legal configuration and result, `U_CACHE` caches the exact floors. -/
theorem cacheAgrees_domainRates {s : State} (hp : s.params.Facts) (hc : ConfigLegal s)
    (hd : DerivedLegal s) : CacheAgrees { s with rate := domainRates s } where
  system := toNat_ofNat_of_lt (s.oscFreq[s.clkSrc.toNat]'(s.clkSrc.isLt)).isLt
  cpu := by
    have hentry : (domainRates s).getD 1 0 = rateWord (clockNum s (resultChoice s))
        (clockDen s (resultChoice s) * s.pllResult.d.toNat) := by
      simp [domainRates, pllClk_eq]
    exact (congrArg BitVec.toNat hentry).trans
      (rateWord_toNat (cpuDivisor_pos hp hc hd) (clockNum_fits hp hd))
  usb := by
    cases hu : s.usbEn <;> simp [rateOf, domainRates, hu, Config.usbRate]
  pbus n hn := by
    have hbus : 0 < (pbusDivOf s n).toNat := busDivLegal_pos (hc.pbus n hn)
    have hfits : clockNum s (resultChoice s) ≤ clockDen s (resultChoice s) *
        s.pllResult.d.toNat * (pbusDivOf s n).toNat * Config.maxWord :=
      (clockNum_fits hp hd).trans
        (Nat.mul_le_mul_right _ (Nat.le_mul_of_pos_right _ hbus))
    have hentry : (domainRates s).getD (3 + n) 0 = rateWord (clockNum s (resultChoice s))
        (clockDen s (resultChoice s) * s.pllResult.d.toNat * (pbusDivOf s n).toNat) := by
      simp [domainRates, pbusRate, pllClk_eq, Nat.add_comm 3 n, hn]
    exact (congrArg BitVec.toNat hentry).trans
      (rateWord_toNat (Nat.mul_pos (cpuDivisor_pos hp hc hd) hbus) hfits)

/-! ### What a host's turn does to the controller -/

/-- All that a host's turn can do: write `CERR` only; or, at a block that is neither halted nor
busy, write registers, those of `CFG` only before `INIT_DONE`, or start `INIT` or a query. -/
inductive HostMove (s t : State) : Prop
  | kept (same : SameButCerr s t)
  | wrote (running : s.halted = false) (rest : s.busy = false) (frame : HostFrame s t)
      (stays : t.busy = false ∧ t.ustep = s.ustep)
      (config : configView t = configView s ∨ s.initDone = false)
  | started (running : s.halted = false) (rest : s.busy = false) (frame : HostFrame s t)
      (config : configView t = configView s)
      (starts : t.busy = true ∧
        ((t.ustep = Ucode.validate ∧ s.initDone = false) ∨ t.ustep = Ucode.querySynth))

theorem HostMove.hostFrame {s t : State} (h : HostMove s t) : HostFrame s t := by
  cases h with
  | kept same => exact same.hostFrame
  | wrote _ _ frame => exact frame
  | started _ _ frame => exact frame

theorem SameButCerr.hostMove_trans {s u t : State} (h : SameButCerr s u) (h' : HostMove u t) :
    HostMove s t := by
  obtain ⟨c, e, rfl⟩ := h
  cases h' with
  | kept same => exact .kept (SameButCerr.trans ⟨c, e, rfl⟩ same)
  | wrote running rest frame stays config =>
    exact .wrote running rest (HostFrame.trans (SameButCerr.hostFrame ⟨c, e, rfl⟩) frame)
      stays config
  | started running rest frame config starts =>
    exact .started running rest (HostFrame.trans (SameButCerr.hostFrame ⟨c, e, rfl⟩) frame)
      config starts

theorem acceptCommand_move (illegal reinit : Bool) {body : State → State} (s : State)
    (hbody : ∀ u : State, u.halted = false → u.busy = false → u.initDone = s.initDone →
      reinit = false → HostMove u (body u)) :
    HostMove s (acceptCommand illegal reinit body s) := by
  obtain ⟨c, hc, -⟩ | ⟨hh, hb, -, hr, ha⟩ := acceptCommand_cases illegal reinit body s
  · exact hc ▸ .kept (.of_reject c s)
  · exact ha ▸ (SameButCerr.of_reject .none s).hostMove_trans (hbody _ hh hb rfl hr)

theorem queryFixed_stays (s : State) :
    (queryFixed s).busy = s.busy ∧ (queryFixed s).ustep = s.ustep := by
  unfold queryFixed
  split <;> exact ⟨rfl, rfl⟩

/-- Only `INIT` and `SYNTH` start the block; no command writes the configuration. -/
theorem exec_command_move {i : Instr} {s t : State} (hi : i.format = .cmd32)
    (h : exec i s = .next t) : HostMove s t := by
  cases i with
  | nop =>
    obtain rfl := Host.Outcome.next.inj h
    exact acceptCommand_move _ _ s fun u _ _ _ _ => .kept (.refl u)
  | init =>
    obtain rfl := Host.Outcome.next.inj h
    exact acceptCommand_move _ _ s fun u hh hb hi hr =>
      .started hh hb (by constructor <;> rfl) rfl ⟨rfl, .inl ⟨rfl, hi.trans hr⟩⟩
  | synth =>
    obtain rfl := Host.Outcome.next.inj h
    exact acceptCommand_move _ _ s fun u hh hb _ _ =>
      .started hh hb (by constructor <;> rfl) rfl ⟨rfl, .inr rfl⟩
  | checkFixed =>
    obtain rfl := Host.Outcome.next.inj h
    refine acceptCommand_move _ _ s fun u hh hb _ _ => ?_
    obtain ⟨hbusy, hu⟩ := queryFixed_stays u
    exact .wrote hh hb (queryFixed_hostFrame u) ⟨hbusy.trans hb, hu⟩
      (.inl (queryFixed_ownersOnly u).config)
  | getRate d =>
    obtain rfl := Host.Outcome.next.inj h
    exact acceptCommand_move _ _ s fun u hh hb _ _ =>
      .wrote hh hb (by constructor <;> rfl) ⟨hb, rfl⟩ (.inl rfl)
  | _ => cases hi

theorem storeReg_stays (r : Reg) (v : Word) (s : State) :
    (storeReg r v s).busy = s.busy ∧ (storeReg r v s).ustep = s.ustep := by
  cases r <;> exact ⟨rfl, rfl⟩

theorem storeReg_qry_configView {r : Reg} (hr : regClass r = .qry) (v : Word) (s : State) :
    configView (storeReg r v s) = configView s := by
  cases r with
  | synFin | synFout | synMNIn => rfl
  | _ => cases hr

theorem writeCfg_move (r : Reg) (v : Word) (s : State) : HostMove s (writeCfg r v s) := by
  obtain ⟨c, hc, -⟩ | ⟨hh, hb, hi, hw⟩ := writeCfg_cases r v s
  · exact hc ▸ .kept (.of_reject c s)
  · obtain ⟨hbusy, hu⟩ := storeReg_stays r v s
    exact hw ▸ .wrote hh hb (storeReg_hostFrame r v s) ⟨hbusy.trans hb, hu⟩ (.inr hi)

theorem writeQry_move {r : Reg} (hr : regClass r = .qry) (v : Word) (s : State) :
    HostMove s (writeQry r v s) := by
  obtain ⟨c, hc, -⟩ | ⟨hh, hb, hw⟩ := writeQry_cases r v s
  · exact hc ▸ .kept (.of_reject c s)
  · obtain ⟨hbusy, hu⟩ := storeReg_stays r v s
    exact hw ▸ .wrote hh hb (storeReg_hostFrame r v s) ⟨hbusy.trans hb, hu⟩
      (.inl (storeReg_qry_configView hr v s))

/-- All that the host's turn can do to the controller and the configuration (R58, R125). -/
theorem step_host_move {s t : State} (ht : nextTurn s = .host) (h : step s = .next t) :
    HostMove s t := by
  obtain ⟨-, ⟨hr, -⟩ | ⟨-, e, rfl⟩ | ⟨hb, -⟩ | ⟨-, w, i, e, -, hd, hx⟩ | ⟨-, e, rfl⟩ |
    ⟨-, r, v, _, e, -, -, -, rfl⟩ | ⟨-, r, v, _, e, -, -, hc, rfl⟩⟩ := step_cases h
  · simp [ht] at hr
  · exact .kept (.of_env s e)
  · simp [ht] at hb
  · exact (SameButCerr.of_env s e).hostMove_trans (exec_command_move (decodeCmd_format hd) hx)
  · exact (SameButCerr.of_env s e).hostMove_trans
      (acceptCommand_move true false _ fun u _ _ _ _ => .kept (.refl u))
  · exact (SameButCerr.of_env s e).hostMove_trans (writeCfg_move r v _)
  · exact (SameButCerr.of_env s e).hostMove_trans (writeQry_move hc v _)

/-! ### Where a micro-step goes -/

/-- The codes that `ustep` may hold after a micro-step that does not halt the block (R44, R78). -/
def successors : Instr → List (BitVec 6)
  | .uValidate => [Ucode.oscEn]
  | .uOscEn => [Ucode.oscPoll]
  | .uOscPoll => [Ucode.oscPoll, Ucode.oscEn, Ucode.derive]
  | .uDerive => [Ucode.pstatSample]
  | .uPstatSample => [Ucode.disconnect, Ucode.disable, Ucode.srcSel]
  | .uDisconnect | .uDisable | .uCfg | .uEnable | .uConnect => [Ucode.feedAa]
  | .uSrcSel => [Ucode.cpuDiv]
  | .uCpuDiv => [Ucode.cfg, Ucode.usbDiv, Ucode.pbusDiv]
  | .uLockPoll => [Ucode.lockPoll, Ucode.connect]
  | .uConnPoll => [Ucode.connPoll, Ucode.usbDiv, Ucode.pbusDiv]
  | .uFeedAa => [Ucode.feed55]
  | .uFeed55 => feedReturns
  | .uUsbDiv => [Ucode.pbusDiv]
  | .uPbusDiv => [Ucode.pbusDiv, Ucode.cache]
  | .uIdle | .uCache | .uQuerySynth => [Ucode.idle]
  | .nop | .init | .synth | .checkFixed | .getRate _ => []

/-- `U_IDLE`, `U_CACHE` and `U_QUERY_SYNTH` end the block's work; no other micro-step does. -/
def EndsWork (i : Instr) : Prop := i = .uIdle ∨ i = .uCache ∨ i = .uQuerySynth

/-- All that a micro-step can do to the controller: halt the block, end its work, or stay busy and
go to one of its successors. -/
theorem exec_microstep_cases {i : Instr} {s t : State} (hi : i.format = .ustep6)
    (hf : i = .uFeed55 → s.feedRet ∈ feedReturns) (h : exec i s = .next t) :
    (∃ code, t = raiseFatal code s ∧ (i = .uValidate ∨ i = .uDerive)) ∨ EndsWork i ∨
      (t.busy = s.busy ∧ t.ustep ∈ successors i) := by
  cases i with
  | nop | init | synth | checkFixed | getRate => cases hi
  | uIdle => exact .inr (.inl (.inl rfl))
  | uCache => exact .inr (.inl (.inr (.inl rfl)))
  | uQuerySynth => exact .inr (.inl (.inr (.inr rfl)))
  | uValidate =>
    obtain rfl := Host.Outcome.next.inj h
    split
    · exact .inl ⟨_, rfl, .inl rfl⟩
    · exact .inr (.inr (by simp [successors]))
  | uDerive =>
    obtain rfl := exec_uDerive_next h
    obtain ⟨code, hd⟩ | ⟨c, hd⟩ := deriveStep_cases s
    · exact .inl ⟨code, hd, .inr rfl⟩
    · exact .inr (.inr (by simp [hd, successors]))
  | uOscPoll =>
    obtain rfl := Host.Outcome.next.inj h
    right; right
    split
    · unfold oscStableNow
      split <;> simp [successors]
    · simp [successors]
  | uPstatSample =>
    obtain rfl := Host.Outcome.next.inj h
    right; right
    simp only [goto_busy, goto_ustep, successors]
    split_ifs <;> simp
  | uCpuDiv | uConnPoll =>
    obtain rfl := Host.Outcome.next.inj h
    right; right
    split
    · cases hu : s.usbEn <;> simp [successors, hu]
    · simp [successors]
  | uPbusDiv | uLockPoll =>
    obtain rfl := Host.Outcome.next.inj h
    right; right
    split <;> simp [successors]
  | uFeed55 =>
    obtain rfl := Host.Outcome.next.inj h
    exact .inr (.inr ⟨by split <;> rfl, hf rfl⟩)
  | uOscEn | uDisconnect | uDisable | uSrcSel | uCfg | uEnable | uConnect | uFeedAa | uUsbDiv =>
    obtain rfl := Host.Outcome.next.inj h
    exact .inr (.inr (by simp [successors]))

/-! ### The phases of `INIT` -/

/-- The successors of a micro-step other than `U_VALIDATE` and `U_DERIVE` stand on the same side of
both. -/
theorem successors_phase {u v : BitVec 6} {i : Instr} (hd : decodeUstep u = .ok i)
    (hv : v ∈ successors i) (hval : i ≠ .uValidate) (hder : i ≠ .uDerive) (he : ¬ EndsWork i) :
    (Ucode.oscEn.toNat ≤ v.toNat ∧ v ≠ Ucode.querySynth ↔
      Ucode.oscEn.toNat ≤ u.toNat ∧ u ≠ Ucode.querySynth) ∧
    (Ucode.pstatSample.toNat ≤ v.toNat ∧ v ≠ Ucode.querySynth ↔
      Ucode.pstatSample.toNat ≤ u.toNat ∧ u ≠ Ucode.querySynth) := by
  have hu := decodeUstep_code hd
  cases i with
  | nop | init | synth | checkFixed | getRate => cases hu
  | uIdle | uCache | uQuerySynth => simp [EndsWork] at he
  | uValidate => exact absurd rfl hval
  | uDerive => exact absurd rfl hder
  | _ =>
    obtain rfl := CodeWord.ustep6.inj hu
    revert v
    decide

theorem decodeUstep_format {u : BitVec 6} {i : Instr} (h : decodeUstep u = .ok i) :
    i.format = .ustep6 := by
  have hu := decodeUstep_code h
  cases i with
  | nop | init | synth | checkFixed | getRate => cases hu
  | _ => rfl

theorem ustep_of_decode {u c : BitVec 6} {i : Instr} (h : decodeUstep u = .ok i)
    (hc : encode i = .ustep6 c) : u = c :=
  CodeWord.ustep6.inj ((decodeUstep_code h).symm.trans hc)

theorem feedReturn_of_feed55 {s : State} {i : Instr} (hc : ControlInv s)
    (hd : decodeUstep s.ustep = .ok i) (hi : i = .uFeed55) : s.feedRet ∈ feedReturns := by
  subst hi
  exact hc.feedReturn (.inr (ustep_of_decode hd rfl))

/-- A predicate holds after every step if it holds after reset and if the host's turns and the
micro-steps of a busy block keep it. -/
theorem step_keeps {P : State → Prop} {s t : State} (hc : ControlInv s) (hinv : P s)
    (hreset : ∀ p e, P { State.resetWith p with env := e })
    (hhost : ∀ {u v}, P u → HostMove u v → P v)
    (hexec : ∀ {i u v}, ControlInv u → P u → u.busy = true → decodeUstep u.ustep = .ok i →
      exec i u = .next v → P v)
    (h : step s = .next t) : P t := by
  have henv (e : Environment) : P { s with env := e } := hhost hinv (.kept (.of_env s e))
  cases ht : nextTurn s with
  | reset =>
    obtain ⟨e, rfl⟩ := step_reset ht h
    exact hreset _ e
  | host => exact hhost hinv (step_host_move ht h)
  | block =>
    obtain ⟨e, rfl⟩ | ⟨hb, i, e, hd, hx⟩ := step_block_cases ht h
    · exact henv e
    · exact hexec (controlInv_of_env hc e) (henv e) hb hd hx

/-! ### The data invariant -/

theorem not_pastValidate_of_rest {s : State} (h : s.busy = false) : ¬ PastValidate s := by
  simp [PastValidate, h]

theorem not_pastDerive_of_rest {s : State} (h : s.busy = false) : ¬ PastDerive s := by
  simp [PastDerive, h]

theorem dataInv_reset (p : Params) (e : Environment) :
    DataInv { State.resetWith p with env := e } where
  validated h := absurd h (not_pastValidate_of_rest rfl)
  derived h := absurd h (not_pastDerive_of_rest rfl)
  cached h := by cases h
  bootRates _ := rfl
  noResult _ _ := rfl

theorem hostMove_dataInv {s t : State} (hinv : DataInv s) (h : HostMove s t) : DataInv t := by
  have hp := h.hostFrame.pllResult
  have hr := h.hostFrame.rate
  have hi := h.hostFrame.initDone
  cases h with
  | kept same =>
    obtain ⟨c, e, rfl⟩ := same
    exact dataInv_congr hinv rfl rfl rfl rfl .rfl .rfl
  | started _ rest frame config starts =>
    obtain ⟨-, hu⟩ := starts
    have hV : ¬ PastValidate t := by
      obtain ⟨hu, -⟩ | hu := hu <;> simp [PastValidate, hu]
    have hD : ¬ PastDerive t := by
      obtain ⟨hu, -⟩ | hu := hu <;> simp [PastDerive, hu]
    exact dataInv_congr hinv config hp hr hi (iff_of_false hV (not_pastValidate_of_rest rest))
      (iff_of_false hD (not_pastDerive_of_rest rest))
  | wrote _ rest frame stays config =>
    have hV := not_pastValidate_of_rest stays.1
    have hD := not_pastDerive_of_rest stays.1
    obtain hv | hnew := config
    · exact dataInv_congr hinv hv hp hr hi (iff_of_false hV (not_pastValidate_of_rest rest))
        (iff_of_false hD (not_pastDerive_of_rest rest))
    · exact {
        validated := fun ht => absurd ht hV
        derived := fun ht => absurd ht hD
        cached := fun ht => by simp [hi, hnew] at ht
        bootRates := fun _ => by rw [hr, frame.params, hinv.bootRates hnew]
        noResult := fun _ _ => by rw [hp, hinv.noResult hnew (not_pastDerive_of_rest rest)] }

theorem validate_dataInv {s t : State} (hc : ControlInv s) (hinv : DataInv s)
    (hb : s.busy = true) (hu : s.ustep = Ucode.validate) (h : exec .uValidate s = .next t) :
    DataInv t := by
  have hi : s.initDone = false := hc.initOnce hb (by simp [hu])
  have hV : ¬ PastValidate s := by simp [PastValidate, hu]
  have hD : ¬ PastDerive s := by simp [PastDerive, hu]
  obtain rfl := Host.Outcome.next.inj h
  split
  · exact dataInv_congr hinv rfl rfl rfl rfl (iff_of_false (not_pastValidate_of_rest rfl) hV)
      (iff_of_false (not_pastDerive_of_rest rfl) hD)
  · rename_i hlegal
    exact {
      validated := fun _ => configLegal_congr (validateFault_eq_none_iff.mp hlegal) rfl
      derived := fun ht => by simp [PastDerive] at ht
      cached := fun ht => by simp [hi] at ht
      bootRates := hinv.bootRates
      noResult := fun hi _ => hinv.noResult hi hD }

theorem derive_dataInv {s t : State} (hc : ControlInv s) (hinv : DataInv s) (hb : s.busy = true)
    (hu : s.ustep = Ucode.derive) (h : exec .uDerive s = .next t) : DataInv t := by
  have hV : PastValidate s := ⟨hb, by simp [hu], by simp [hu]⟩
  have hD : ¬ PastDerive s := by simp [PastDerive, hu]
  have hi : s.initDone = false := hc.initOnce hb (by simp [hu])
  have hlegal := hinv.validated hV
  obtain rfl := exec_uDerive_next h
  obtain ⟨code, ht⟩ | ⟨c, ⟨hchosen, hcpu, husb⟩, ht⟩ := deriveStep_legal_cases hlegal.mode
  · rw [ht]
    exact {
      validated := fun ht => absurd ht (not_pastValidate_of_rest rfl)
      derived := fun ht => absurd ht (not_pastDerive_of_rest rfl)
      cached := fun ht => by simp [hi] at ht
      bootRates := hinv.bootRates
      noResult := fun hi _ => hinv.noResult hi hD }
  · rw [ht]
    have hresult :
        resultChoice (goto Ucode.pstatSample { s with pllResult := choiceTriple c }) = c :=
      resultChoice_of_chosen hchosen (Params.ok_facts hc.paramsOk) rfl
    exact {
      validated := fun _ => configLegal_congr hlegal rfl
      derived := fun _ => ⟨by rw [hresult]; exact hchosen, by rw [hresult]; exact hcpu,
        by rw [hresult]; exact husb⟩
      cached := fun ht => by simp [hi] at ht
      bootRates := hinv.bootRates
      noResult := fun _ hn => absurd ⟨hb, by simp, by simp⟩ hn }

theorem cache_dataInv {s t : State} (hc : ControlInv s) (hinv : DataInv s) (hb : s.busy = true)
    (hu : s.ustep = Ucode.cache) (h : exec .uCache s = .next t) : DataInv t := by
  have hlegal := hinv.validated ⟨hb, by simp [hu], by simp [hu]⟩
  have hderived := hinv.derived ⟨hb, by simp [hu], by simp [hu]⟩
  have hagrees := cacheAgrees_domainRates (Params.ok_facts hc.paramsOk) hlegal hderived
  obtain rfl := Host.Outcome.next.inj h
  exact {
    validated := fun ht => absurd ht (not_pastValidate_of_rest rfl)
    derived := fun ht => absurd ht (not_pastDerive_of_rest rfl)
    cached := fun _ => ⟨configLegal_congr hlegal rfl, derivedLegal_congr hderived rfl rfl,
      cacheAgrees_congr hagrees rfl rfl rfl⟩
    bootRates := fun ht => by cases ht
    noResult := fun ht => by cases ht }

/-- A query keeps all the data invariant reads (R90). -/
theorem query_dataInv {s t : State} (hinv : DataInv s) (hu : s.ustep = Ucode.querySynth)
    (h : exec .uQuerySynth s = .next t) : DataInv t := by
  have hV : ¬ PastValidate s := by simp [PastValidate, hu]
  have hD : ¬ PastDerive s := by simp [PastDerive, hu]
  have hframe := querySearch_hostFrame s
  obtain rfl := Host.Outcome.next.inj h
  exact dataInv_congr hinv (querySearch_ownersOnly s).config hframe.pllResult hframe.rate
    hframe.initDone (iff_of_false (not_pastValidate_of_rest rfl) hV)
    (iff_of_false (not_pastDerive_of_rest rfl) hD)

/-- A micro-step of a busy block keeps the data invariant: `U_VALIDATE`, `U_DERIVE` and `U_CACHE`
establish a part of it each, and every other one keeps all it reads. -/
theorem exec_dataInv {i : Instr} {s t : State} (hc : ControlInv s) (hinv : DataInv s)
    (hb : s.busy = true) (hd : decodeUstep s.ustep = .ok i) (h : exec i s = .next t) :
    DataInv t := by
  by_cases hval : i = .uValidate
  · subst hval
    exact validate_dataInv hc hinv hb (ustep_of_decode hd rfl) h
  by_cases hder : i = .uDerive
  · subst hder
    exact derive_dataInv hc hinv hb (ustep_of_decode hd rfl) h
  have hhalt : ¬ (i = .uValidate ∨ i = .uDerive) := by simp [hval, hder]
  by_cases he : EndsWork i
  · obtain rfl | rfl | rfl := he
    · exact Host.Outcome.next.inj h ▸ hinv
    · exact cache_dataInv hc hinv hb (ustep_of_decode hd rfl) h
    · exact query_dataInv hinv (ustep_of_decode hd rfl) h
  obtain ⟨-, -, hi⟩ | hi | ⟨hbusy, hsucc⟩ :=
    exec_microstep_cases (decodeUstep_format hd) (feedReturn_of_feed55 hc hd) h
  · exact absurd hi hhalt
  · exact absurd hi he
  · obtain ⟨hV, hD⟩ := successors_phase hd hsucc hval hder he
    obtain ⟨hv, hi, hr, hp, -, -⟩ := exec_ownersOnly h
    have hcache : i ≠ .uCache := fun hi => he (.inr (.inl hi))
    exact dataInv_congr hinv hv (hp.resolve_left hder) (hr.resolve_left hcache)
      (hi.resolve_left hcache) (by rw [PastValidate, hbusy, hV]) (by rw [PastDerive, hbusy, hD])

/-! ### The pair invariant -/

/-- `INIT` is past the write of the pair, `U_CFG`, or writes its feed. -/
def PastCfg (s : State) : Prop :=
  s.busy = true ∧ Ucode.enable.toNat ≤ s.ustep.toNat ∧ s.ustep ≠ Ucode.querySynth ∧
    (InFeed s → Ucode.enable.toNat ≤ s.feedRet.toNat)

theorem pairInv_reset (p : Params) (e : Environment) :
    PairInv { State.resetWith p with env := e } where
  atCfg h := by cases h
  pairs m n h := by cases h
  written m n h := by cases h

theorem hostMove_pairInv {s t : State} (hinv : PairInv s) (h : HostMove s t) : PairInv t := by
  have hframe := h.hostFrame
  have hpairs : ∀ m n, .pcfg m n ∈ t.trace → m = t.pllResult.m ∧ n = t.pllResult.n := by
    rw [hframe.trace, hframe.pllResult]
    exact hinv.pairs
  cases h with
  | kept same =>
    obtain ⟨c, e, rfl⟩ := same
    exact { hinv with }
  | wrote _ rest _ stays config =>
    refine ⟨fun hb => by simp [stays.1] at hb, hpairs, fun m n hmem => ?_⟩
    obtain ⟨hmode, hdone | ⟨hb, -⟩⟩ := hinv.written m n (hframe.trace ▸ hmem)
    · have hv := config.resolve_right (by simp [hdone])
      exact ⟨pllMode_of_configView hv ▸ hmode, .inl (hframe.initDone.trans hdone)⟩
    · simp [rest] at hb
  | started _ rest _ config starts =>
    refine ⟨fun _ hu => ?_, hpairs, fun m n hmem => ?_⟩
    · obtain ⟨-, ⟨hval, -⟩ | hquery⟩ := starts <;> simp_all
    · obtain ⟨hmode, hdone | ⟨hb, -⟩⟩ := hinv.written m n (hframe.trace ▸ hmem)
      · exact ⟨pllMode_of_configView config ▸ hmode, .inl (hframe.initDone.trans hdone)⟩
      · simp [rest] at hb

/-- Only `U_CFG` writes a pair, and it writes `PLL_RESULT`'s (R102). -/
theorem portOp_eq_pcfg {s : State} {i : Instr} {m : BitVec 16} {n : BitVec 8}
    (h : portOp s i = some (.pcfg m n)) :
    i = .uCfg ∧ m = s.pllResult.m ∧ n = s.pllResult.n := by
  cases i <;> simp_all [portOp]

theorem exec_endsWork_ustep {i : Instr} {s t : State} (he : EndsWork i)
    (hd : decodeUstep s.ustep = .ok i) (h : exec i s = .next t) : t.ustep = Ucode.idle := by
  obtain rfl | rfl | rfl := he
  · obtain rfl := Host.Outcome.next.inj h
    exact ustep_of_decode hd rfl
  all_goals
    obtain rfl := Host.Outcome.next.inj h
    rfl

/-- `U_CFG` is entered only from `U_CPU_DIV`, and not in `BYPASS` mode (R101). -/
theorem exec_atCfg {i : Instr} {s t : State} (hc : ControlInv s)
    (hd : decodeUstep s.ustep = .ok i) (h : exec i s = .next t) (hb : t.busy = true)
    (hu : t.ustep = Ucode.cfg) : s.pllMode ≠ modeBypass := by
  obtain ⟨code, rfl, -⟩ | he | ⟨-, hsucc⟩ :=
    exec_microstep_cases (decodeUstep_format hd) (feedReturn_of_feed55 hc hd) h
  · cases hb
  · simp [exec_endsWork_ustep he hd h] at hu
  · have hi : i = .uCpuDiv := by
      rw [hu] at hsucc
      cases i <;> simp_all [successors, feedReturns]
    subst hi
    obtain rfl := Host.Outcome.next.inj h
    split at hu
    · cases hs : s.usbEn <;> simp [hs] at hu
    · assumption

/-- Once the pair is written, `INIT` does not come back before `U_CFG`. -/
theorem exec_pastCfg {i : Instr} {s t : State} (hc : ControlInv s) (hp : PastCfg s)
    (hd : decodeUstep s.ustep = .ok i) (h : exec i s = .next t) :
    t.initDone = true ∨ PastCfg t := by
  have hcode := decodeUstep_code hd
  obtain ⟨hb, hge, hq, hret⟩ := hp
  cases i with
  | nop | init | synth | checkFixed | getRate => cases hcode
  | uIdle | uValidate | uOscEn | uOscPoll | uDerive | uPstatSample | uDisconnect | uDisable
  | uSrcSel | uCpuDiv | uCfg | uQuerySynth =>
    obtain hu := CodeWord.ustep6.inj hcode
    simp [← hu] at hge hq
  | uCache =>
    obtain rfl := Host.Outcome.next.inj h
    exact .inl rfl
  | uFeedAa =>
    obtain rfl := Host.Outcome.next.inj h
    exact .inr ⟨hb, by simp, by simp, fun _ => hret (.inl (ustep_of_decode hd rfl))⟩
  | uFeed55 =>
    have hmem := feedReturn_of_feed55 hc hd rfl
    have hge := hret (.inr (ustep_of_decode hd rfl))
    have hplace : ∀ u ∈ feedReturns, Ucode.enable.toNat ≤ u.toNat →
        u ≠ Ucode.querySynth ∧ u ≠ Ucode.feedAa ∧ u ≠ Ucode.feed55 := by decide
    obtain ⟨hquery, haa, h55⟩ := hplace _ hmem hge
    obtain rfl := Host.Outcome.next.inj h
    exact .inr ⟨by split <;> exact hb, hge, hquery, fun hf => (hf.elim haa h55).elim⟩
  | uLockPoll | uPbusDiv =>
    obtain rfl := Host.Outcome.next.inj h
    right
    split <;> exact ⟨hb, by simp, by simp, by simp⟩
  | uConnPoll =>
    obtain rfl := Host.Outcome.next.inj h
    right
    split
    · cases hu : s.usbEn <;> exact ⟨hb, by simp [hu], by simp [hu], by simp [hu]⟩
    · exact ⟨hb, by simp, by simp, by simp⟩
  | uEnable | uConnect | uUsbDiv =>
    obtain rfl := Host.Outcome.next.inj h
    exact .inr ⟨hb, by simp, by simp, by simp⟩

theorem exec_pairInv {i : Instr} {s t : State} (hc : ControlInv s) (hinv : PairInv s)
    (hb : s.busy = true) (hd : decodeUstep s.ustep = .ok i) (h : exec i s = .next t) :
    PairInv t := by
  have hmode := pllMode_of_configView (exec_ownersOnly h).config
  have hwritten : ∀ m n, .pcfg m n ∈ t.trace → .pcfg m n ∈ s.trace ∨
      (i = .uCfg ∧ m = s.pllResult.m ∧ n = s.pllResult.n) := by
    intro m n hmem
    rw [exec_trace h, List.mem_append, Option.mem_toList] at hmem
    exact hmem.imp_right portOp_eq_pcfg
  refine ⟨fun hbt hu => hmode ▸ exec_atCfg hc hd h hbt hu, fun m n hmem => ?_, fun m n hmem => ?_⟩
  · have hresult : t.pllResult = s.pllResult := by
      refine (exec_ownersOnly h).pllResult.resolve_left fun hder => ?_
      subst hder
      have hu : s.ustep = Ucode.derive := ustep_of_decode hd rfl
      obtain hold | ⟨hi, -⟩ := hwritten m n hmem
      · obtain ⟨-, hdone | ⟨-, hge, -⟩⟩ := hinv.written m n hold
        · simp [hc.initOnce hb (by simp [hu])] at hdone
        · simp [hu] at hge
      · cases hi
    rw [hresult]
    obtain hold | ⟨-, hm, hn⟩ := hwritten m n hmem
    · exact hinv.pairs m n hold
    · exact ⟨hm, hn⟩
  · rw [hmode]
    obtain hold | ⟨rfl, -, -⟩ := hwritten m n hmem
    · obtain ⟨hbypass, hdone | hpast⟩ := hinv.written m n hold
      · exact ⟨hbypass, .inl ((exec_sticky h).initDone hdone)⟩
      · exact ⟨hbypass, exec_pastCfg hc hpast hd h⟩
    · have hu : s.ustep = Ucode.cfg := ustep_of_decode hd rfl
      obtain rfl := Host.Outcome.next.inj h
      exact ⟨hinv.atCfg hb hu, .inr ⟨hb, by simp, by simp, by simp⟩⟩

/-- A pair in the trace is `PLL_RESULT`'s, of a legal configuration and result. -/
theorem pair_written_legal {s : State} {m : BitVec 16} {n : BitVec 8} (hdata : DataInv s)
    (hpair : PairInv s) (hmem : .pcfg m n ∈ s.trace) :
    PairLegal s.params (finOf s) m.toNat n.toNat := by
  obtain ⟨rfl, rfl⟩ := hpair.pairs m n hmem
  obtain ⟨hmode, hdone | ⟨hb, hge, hq, -⟩⟩ := hpair.written _ _ hmem
  · obtain ⟨hlegal, hderived, -⟩ := hdata.cached hdone
    exact pairLegal_of_derived hmode hlegal hderived
  · have hpast : Ucode.enable.toNat ≤ s.ustep.toNat := hge
    exact pairLegal_of_derived hmode
      (hdata.validated ⟨hb, le_trans (by decide) hpast, hq⟩)
      (hdata.derived ⟨hb, le_trans (by decide) hpast, hq⟩)

/-! ### The sequencer's invariant -/

/-- `INIT` stands at a micro-step that only the PLL modes take, or writes the feed before one. -/
def AtPllModesStep (s : State) : Prop :=
  s.ustep = Ucode.cfg ∨ s.ustep = Ucode.enable ∨ s.ustep = Ucode.lockPoll ∨
    s.ustep = Ucode.connect ∨ s.ustep = Ucode.connPoll ∨
    (InFeed s ∧ s.feedRet ≠ Ucode.disable ∧ s.feedRet ≠ Ucode.srcSel)

theorem finalSeq_of_configView {s t : State} (h : configView t = configView s) :
    finalSeq t = finalSeq s := by
  rw [finalSeq, pllMode_of_configView h, finalSeq]

theorem seqInv_reset (p : Params) (e : Environment) :
    SeqInv { State.resetWith p with env := e } where
  done h := by cases h
  running h := by cases h
  before _ _ := rfl
  pllModes h := by cases h

theorem hostMove_seqInv {s t : State} (hinv : SeqInv s) (h : HostMove s t) : SeqInv t := by
  have hseq := h.hostFrame.seqState
  have hi := h.hostFrame.initDone
  cases h with
  | kept same =>
    obtain ⟨c, e, rfl⟩ := same
    exact { hinv with }
  | wrote _ rest _ stays config =>
    refine ⟨fun hdone => ?_, fun hb => ?_, fun hnew _ => ?_, fun hb => ?_⟩
    · have hdone := hi ▸ hdone
      rw [hseq, hinv.done hdone,
        finalSeq_of_configView (config.resolve_right (by simp [hdone]))]
    · simp [stays.1] at hb
    · rw [hseq, hinv.before (hi ▸ hnew) (.inl rest)]
    · simp [stays.1] at hb
  | started _ rest _ config starts =>
    refine ⟨fun hdone => ?_, fun _ hq => ?_, fun hnew _ => ?_, fun _ hat => ?_⟩
    · rw [hseq, hinv.done (hi ▸ hdone), finalSeq_of_configView config]
    · obtain ⟨hu, hnew⟩ := starts.2.resolve_right hq
      rw [hseq, hinv.before hnew (.inl rest)]
      simp [seqAt, hu]
    · rw [hseq, hinv.before (hi ▸ hnew) (.inl rest)]
    · obtain ⟨-, ⟨hu, -⟩ | hu⟩ := starts <;> simp [hu, InFeed] at hat

/-- What the invariant asks of a running `INIT`. -/
theorem seqInv_of_running {t : State} (hi : t.initDone = false) (hb : t.busy = true)
    (hq : t.ustep ≠ Ucode.querySynth) (hs : t.seqState = seqAt t)
    (hm : AtPllModesStep t → t.pllMode ≠ modeBypass) : SeqInv t where
  done h := by simp [hi] at h
  running _ _ := hs
  before _ h := (h.elim (by simp [hb]) hq).elim
  pllModes _ h := hm h

/-- What it asks of a halted `INIT`. -/
theorem seqInv_of_halted {t : State} (hi : t.initDone = false) (hb : t.busy = false)
    (hs : t.seqState = .disabled) : SeqInv t where
  done h := by simp [hi] at h
  running h := by simp [hb] at h
  before _ _ := hs
  pllModes h := by simp [hb] at h

theorem query_seqInv {s t : State} (hinv : SeqInv s) (hu : s.ustep = Ucode.querySynth)
    (h : exec .uQuerySynth s = .next t) : SeqInv t := by
  have hframe := querySearch_hostFrame s
  have hfinal := finalSeq_of_configView (querySearch_ownersOnly s).config
  obtain rfl := Host.Outcome.next.inj h
  exact {
    done := fun hdone =>
      (hframe.seqState.trans (hinv.done (hframe.initDone ▸ hdone))).trans hfinal.symm
    running := fun hb => by cases hb
    before := fun hnew _ => hframe.seqState.trans (hinv.before (hframe.initDone ▸ hnew) (.inr hu))
    pllModes := fun hb => by cases hb }

/-- The micro-steps of `INIT` before the branch of `U_CPU_DIV`, and that one. -/
def beforeBranch : List (BitVec 6) :=
  [Ucode.validate, Ucode.oscEn, Ucode.oscPoll, Ucode.derive, Ucode.pstatSample, Ucode.disconnect,
    Ucode.disable, Ucode.srcSel, Ucode.cpuDiv]

theorem seqAt_of_beforeBranch {s : State} (h : s.ustep ∈ beforeBranch) : seqAt s = .disabled := by
  have hcodes : ∀ u ∈ beforeBranch, ¬ (u = Ucode.lockPoll ∨ u = Ucode.connect ∨
      u = Ucode.connPoll ∨ u = Ucode.feedAa ∨ u = Ucode.feed55 ∨ u = Ucode.usbDiv ∨
      u = Ucode.pbusDiv ∨ u = Ucode.cache) := by decide
  have := hcodes _ h
  simp_all [seqAt, InFeed]

theorem seqAt_of_feed {s : State} (h : InFeed s) :
    seqAt s = if s.feedRet = Ucode.connPoll then .locked else .disabled := by
  obtain hu | hu := h <;> simp [seqAt, InFeed, hu]

theorem seqAt_of_divider {s : State}
    (h : s.ustep = Ucode.usbDiv ∨ s.ustep = Ucode.pbusDiv ∨ s.ustep = Ucode.cache) :
    seqAt s = finalSeq s := by
  obtain hu | hu | hu := h <;> simp [seqAt, InFeed, hu]

theorem seqInv_of_beforeBranch {t : State} (hi : t.initDone = false) (hb : t.busy = true)
    (hs : t.seqState = .disabled) (hu : t.ustep ∈ beforeBranch) : SeqInv t := by
  have hcodes : ∀ u ∈ beforeBranch, ¬ (u = Ucode.querySynth ∨ u = Ucode.cfg ∨ u = Ucode.enable ∨
      u = Ucode.lockPoll ∨ u = Ucode.connect ∨ u = Ucode.connPoll ∨ u = Ucode.feedAa ∨
      u = Ucode.feed55) := by decide
  have := hcodes _ hu
  refine seqInv_of_running hi hb (by simp_all) (hs.trans (seqAt_of_beforeBranch hu).symm) ?_
  simp_all [AtPllModesStep, InFeed]

theorem seqInv_of_feed {t : State} (hi : t.initDone = false) (hb : t.busy = true)
    (hu : InFeed t) (hs : t.seqState = if t.feedRet = Ucode.connPoll then .locked else .disabled)
    (hm : t.feedRet = Ucode.disable ∨ t.feedRet = Ucode.srcSel ∨ t.pllMode ≠ modeBypass) :
    SeqInv t := by
  refine seqInv_of_running hi hb ?_ (hs.trans (seqAt_of_feed hu).symm) ?_
  · obtain hu | hu := hu <;> simp [hu]
  · obtain hu | hu := hu <;> simp [AtPllModesStep, hu] <;> tauto

theorem seqInv_of_divider {t : State} (hi : t.initDone = false) (hb : t.busy = true)
    (hu : t.ustep = Ucode.usbDiv ∨ t.ustep = Ucode.pbusDiv ∨ t.ustep = Ucode.cache)
    (hs : t.seqState = finalSeq t) : SeqInv t := by
  refine seqInv_of_running hi hb ?_ (hs.trans (seqAt_of_divider hu).symm) ?_ <;>
    obtain hu | hu | hu := hu <;> simp [AtPllModesStep, InFeed, hu]

/-- A feed of the `BYPASS` mode returns into the disable steps (R101). -/
theorem feedRet_of_pllModes {s : State} (hfeed : InFeed s)
    (hm : AtPllModesStep s → s.pllMode ≠ modeBypass) :
    s.feedRet = Ucode.disable ∨ s.feedRet = Ucode.srcSel ∨ s.pllMode ≠ modeBypass := by
  by_contra hnone
  simp only [not_or] at hnone
  obtain ⟨hdisable, hsrc, hbypass⟩ := hnone
  exact hbypass (hm (.inr (.inr (.inr (.inr (.inr ⟨hfeed, hdisable, hsrc⟩))))))

theorem enterDividers_place (s : State) : (enterDividers s).ustep = Ucode.usbDiv ∨
    (enterDividers s).ustep = Ucode.pbusDiv ∨ (enterDividers s).ustep = Ucode.cache := by
  cases hu : s.usbEn <;> simp [hu]

/-- `U_FEED_55` returns where the change said; the return to `U_LOCK_POLL` sets `ENABLING` (R108,
R110). -/
theorem feed55_seqInv {s : State} (hi : s.initDone = false) (hb : s.busy = true)
    (hret : s.feedRet ∈ feedReturns)
    (hs : s.seqState = if s.feedRet = Ucode.connPoll then .locked else .disabled)
    (hm : s.feedRet = Ucode.disable ∨ s.feedRet = Ucode.srcSel ∨ s.pllMode ≠ modeBypass) :
    SeqInv (goto s.feedRet (emit (.feed 0x55)
      (if s.feedRet = Ucode.lockPoll then { s with seqState := .enabling } else s))) := by
  have hret : s.feedRet = Ucode.disable ∨ s.feedRet = Ucode.srcSel ∨ s.feedRet = Ucode.enable ∨
      s.feedRet = Ucode.lockPoll ∨ s.feedRet = Ucode.connPoll := by
    simpa [feedReturns] using hret
  obtain hr | hr | hr | hr | hr := hret <;> rw [hr] at hs hm ⊢
  case inl =>
    exact seqInv_of_beforeBranch hi hb hs (by simp [beforeBranch])
  case inr.inl =>
    exact seqInv_of_beforeBranch hi hb hs (by simp [beforeBranch])
  all_goals have hpll : s.pllMode ≠ modeBypass := by simpa using hm
  case inr.inr.inl =>
    exact seqInv_of_running hi hb (by simp) (by simpa [seqAt, InFeed] using hs) fun _ => hpll
  case inr.inr.inr.inl =>
    exact seqInv_of_running hi hb (by simp) (by simp [seqAt]) fun _ => hpll
  case inr.inr.inr.inr =>
    exact seqInv_of_running hi hb (by simp) (by simpa [seqAt] using hs) fun _ => hpll

/-- A micro-step up to the branch of `U_CPU_DIV` leaves `SEQ_STATE` at `DISABLED`. -/
theorem beforeBranch_seqInv {i : Instr} {s t : State} (hi : s.initDone = false)
    (hb : s.busy = true) (hs : s.seqState = .disabled) (hmem : s.ustep ∈ beforeBranch)
    (hd : decodeUstep s.ustep = .ok i) (h : exec i s = .next t) : SeqInv t := by
  have hu := decodeUstep_code hd
  cases i with
  | nop | init | synth | checkFixed | getRate => cases hu
  | uValidate =>
    obtain rfl := Host.Outcome.next.inj h
    split
    · exact seqInv_of_halted hi rfl hs
    · exact seqInv_of_beforeBranch hi hb hs (by simp [beforeBranch])
  | uDerive =>
    obtain rfl := exec_uDerive_next h
    obtain ⟨code, ht⟩ | ⟨c, ht⟩ := deriveStep_cases s
    · exact ht ▸ seqInv_of_halted hi rfl hs
    · exact ht ▸ seqInv_of_beforeBranch hi hb hs (by simp [beforeBranch])
  | uOscPoll =>
    obtain rfl := Host.Outcome.next.inj h
    split
    · unfold oscStableNow
      split <;> exact seqInv_of_beforeBranch hi hb hs (by simp [beforeBranch])
    · exact seqInv_of_beforeBranch hi hb hs (by simp [beforeBranch])
  | uPstatSample =>
    obtain rfl := Host.Outcome.next.inj h
    refine seqInv_of_beforeBranch hi hb hs ?_
    simp only [goto_ustep]
    split_ifs <;> simp [beforeBranch]
  | uDisconnect =>
    obtain rfl := Host.Outcome.next.inj h
    cases s.en0 <;> exact seqInv_of_feed hi hb (.inl rfl) hs (by simp)
  | uDisable =>
    obtain rfl := Host.Outcome.next.inj h
    exact seqInv_of_feed hi hb (.inl rfl) hs (by simp)
  | uOscEn | uSrcSel =>
    obtain rfl := Host.Outcome.next.inj h
    exact seqInv_of_beforeBranch hi hb (by simp [hs]) (by simp [beforeBranch])
  | uCpuDiv =>
    obtain rfl := Host.Outcome.next.inj h
    split
    · rename_i hbypass
      exact seqInv_of_divider hi hb (enterDividers_place _) (by simp [finalSeq, hbypass, hs])
    · rename_i hpll
      exact seqInv_of_running hi hb (by simp) (by simp [seqAt, InFeed, hs]) fun _ => hpll
  | _ =>
    rw [← CodeWord.ustep6.inj hu] at hmem
    simp [beforeBranch] at hmem

/-- A micro-step past the branch: `SEQ_STATE` is written by its owners only, and the PLL modes'
micro-steps follow each other (R104 to R108). -/
theorem afterBranch_seqInv {i : Instr} {s t : State} (hi : s.initDone = false)
    (hb : s.busy = true) (hs : s.seqState = seqAt s)
    (hm : AtPllModesStep s → s.pllMode ≠ modeBypass) (hret : i = .uFeed55 → s.feedRet ∈ feedReturns)
    (hmem : s.ustep ∉ beforeBranch) (he : s.ustep ≠ Ucode.idle ∧ s.ustep ≠ Ucode.querySynth)
    (hd : decodeUstep s.ustep = .ok i) (h : exec i s = .next t) : SeqInv t := by
  have hu := decodeUstep_code hd
  cases i with
  | nop | init | synth | checkFixed | getRate => cases hu
  | uCfg | uEnable | uConnect =>
    have hu := CodeWord.ustep6.inj hu
    have hpll : s.pllMode ≠ modeBypass := hm (by simp [AtPllModesStep, ← hu])
    obtain rfl := Host.Outcome.next.inj h
    exact seqInv_of_feed hi hb (.inl rfl) (by simp [hs, seqAt, InFeed, ← hu]) (.inr (.inr hpll))
  | uLockPoll =>
    have hu := CodeWord.ustep6.inj hu
    have hpll : s.pllMode ≠ modeBypass := hm (by simp [AtPllModesStep, ← hu])
    obtain rfl := Host.Outcome.next.inj h
    split
    · exact seqInv_of_running hi hb (by simp) (by simp [seqAt]) fun _ => hpll
    · exact seqInv_of_running hi hb (by simp) (by simp [hs, seqAt, ← hu]) fun _ => hpll
  | uConnPoll =>
    have hu := CodeWord.ustep6.inj hu
    have hpll : s.pllMode ≠ modeBypass := hm (by simp [AtPllModesStep, ← hu])
    obtain rfl := Host.Outcome.next.inj h
    split
    · exact seqInv_of_divider hi hb (enterDividers_place _) (if_neg hpll).symm
    · exact seqInv_of_running hi hb (by simp) (by simp [hs, seqAt, ← hu]) fun _ => hpll
  | uFeedAa =>
    have hfeed : InFeed s := .inl (CodeWord.ustep6.inj hu).symm
    have hm := feedRet_of_pllModes hfeed hm
    obtain rfl := Host.Outcome.next.inj h
    exact seqInv_of_feed hi hb (.inr rfl) (hs.trans (seqAt_of_feed hfeed)) hm
  | uFeed55 =>
    have hfeed : InFeed s := .inr (CodeWord.ustep6.inj hu).symm
    obtain rfl := Host.Outcome.next.inj h
    exact feed55_seqInv hi hb (hret rfl) (hs.trans (seqAt_of_feed hfeed))
      (feedRet_of_pllModes hfeed hm)
  | uUsbDiv =>
    have hs := hs.trans (seqAt_of_divider (.inl (CodeWord.ustep6.inj hu).symm))
    obtain rfl := Host.Outcome.next.inj h
    exact seqInv_of_divider hi hb (.inr (.inl rfl)) hs
  | uPbusDiv =>
    have hs := hs.trans (seqAt_of_divider (.inr (.inl (CodeWord.ustep6.inj hu).symm)))
    obtain rfl := Host.Outcome.next.inj h
    split
    · exact seqInv_of_divider hi hb (.inr (.inl rfl)) hs
    · exact seqInv_of_divider hi hb (.inr (.inr rfl)) hs
  | uCache =>
    have hs := hs.trans (seqAt_of_divider (.inr (.inr (CodeWord.ustep6.inj hu).symm)))
    obtain rfl := Host.Outcome.next.inj h
    exact {
      done := fun _ => hs
      running := fun hb => by cases hb
      before := fun hn => by cases hn
      pllModes := fun hb => by cases hb }
  | _ =>
    rw [← CodeWord.ustep6.inj hu] at hmem he
    simp [beforeBranch] at hmem he

theorem exec_seqInv {i : Instr} {s t : State} (hc : ControlInv s) (hinv : SeqInv s)
    (hb : s.busy = true) (hd : decodeUstep s.ustep = .ok i) (h : exec i s = .next t) :
    SeqInv t := by
  by_cases hq : s.ustep = Ucode.querySynth
  · have hi : i = .uQuerySynth := by
      rw [hq] at hd
      exact (Except.ok.inj hd).symm
    exact query_seqInv hinv hq (hi ▸ h)
  have hi : s.initDone = false := hc.initOnce hb hq
  have hrun : s.seqState = seqAt s := hinv.running hb hq
  by_cases hmem : s.ustep ∈ beforeBranch
  · exact beforeBranch_seqInv hi hb (hrun.trans (seqAt_of_beforeBranch hmem)) hmem hd h
  · obtain ⟨-, hidle⟩ := hc.busyRuns hb
    exact afterBranch_seqInv hi hb hrun (hinv.pllModes hb) (feedReturn_of_feed55 hc hd) hmem
      ⟨hidle, hq⟩ hd h

/-! ### Words and their fields -/

/-- A word made of two fields is the upper one times the lower one's size, plus the lower one. -/
theorem toNat_append_add {v w : Nat} (x : BitVec v) (y : BitVec w) :
    (x ++ y).toNat = x.toNat * 2 ^ w + y.toNat := by
  rw [BitVec.toNat_append, Nat.shiftLeft_eq, Nat.mul_comm,
    ← Nat.two_pow_add_eq_or_of_lt y.isLt]

theorem cmdWord_fields (w : Word) : cmdZ w ++ cmdArg w ++ cmdOp w = w := by
  apply BitVec.eq_of_toNat_eq
  rw [toNat_append_add, toNat_append_add, cmdZ_toNat, cmdArg_toNat, cmdOp_toNat]
  omega

/-- A command decodes from its own word only. -/
theorem decodeCmd_code {w : Word} {i : Instr} (h : decodeCmd w = .ok i) :
    encode i = .cmd32 w := by
  have hop {n : Nat} (hn : (cmdOp w).toNat = n) : cmdOp w = BitVec.ofNat 8 n := by
    rw [← hn, BitVec.ofNat_toNat, BitVec.setWidth_eq]
  have hword := cmdWord_fields w
  obtain ⟨hz, ⟨rfl, ho, ha⟩ | ⟨rfl, ho, ha⟩ | ⟨rfl, ho, ha⟩ | ⟨rfl, ho, ha⟩ | ⟨rfl, ho⟩⟩ :=
    decodeCmd_ok h
  case inr.inr.inr.inr =>
    rw [hz, hop ho] at hword
    exact congrArg CodeWord.cmd32 hword
  all_goals
    rw [hz, ha, hop ho] at hword
    exact congrArg CodeWord.cmd32 hword

theorem decodeUstep_of_encode {i : Instr} {u : BitVec 6} (h : encode i = .ustep6 u) :
    decodeUstep u = .ok i := by
  cases i with
  | nop | init | synth | checkFixed | getRate => cases h
  | _ =>
    cases h
    rfl

/-! ### Who changes the result registers (R31 to R33) -/

/-- The result registers agree in both states. -/
structure SameResults (s t : State) : Prop where
  rateOut : t.rateOut = s.rateOut
  pllResult : t.pllResult = s.pllResult
  synResult : t.synResult = s.synResult
  synFcco : t.synFcco = s.synFcco

theorem SameButCerr.sameResults {s t : State} (h : SameButCerr s t) : SameResults s t := by
  obtain ⟨_, _, rfl⟩ := h
  constructor <;> rfl

theorem storeReg_sameResults (r : Reg) (v : Word) (s : State) :
    SameResults s (storeReg r v s) := by
  cases r <;> constructor <;> rfl

theorem writeCfg_sameResults (r : Reg) (v : Word) (s : State) :
    SameResults s (writeCfg r v s) := by
  obtain ⟨c, hc, -⟩ | ⟨-, -, -, hw⟩ := writeCfg_cases r v s
  · exact hc ▸ (SameButCerr.of_reject c s).sameResults
  · exact hw ▸ storeReg_sameResults r v s

theorem writeQry_sameResults (r : Reg) (v : Word) (s : State) :
    SameResults s (writeQry r v s) := by
  obtain ⟨c, hc, -⟩ | ⟨-, -, hw⟩ := writeQry_cases r v s
  · exact hc ▸ (SameButCerr.of_reject c s).sameResults
  · exact hw ▸ storeReg_sameResults r v s

theorem refuseIllegal_sameResults (s : State) : SameResults s (refuseIllegal s) := by
  obtain ⟨c, hc, -⟩ | ⟨-, -, hi, -⟩ := acceptCommand_cases true false id s
  · rw [refuseIllegal, hc]
    exact (SameButCerr.of_reject c s).sameResults
  · cases hi

theorem OwnersOnly.of_env {i : Instr} {s t : State} {e : Environment}
    (h : OwnersOnly i { s with env := e } t) : OwnersOnly i s t :=
  (SameButCerr.of_env s e).ownersOnly.trans h

/-- Only an instruction changes a result register: the micro-step that `ustep` holds, or the command
whose word the host writes. -/
theorem step_results {s t : State} (hn : NotReset s) (h : step s = .next t) :
    SameResults s t ∨ ∃ i, OwnersOnly i s t ∧
      ((nextTurn s = .block ∧ s.busy = true ∧ encode i = .ustep6 s.ustep) ∨
        ∃ w, HostCommandIs s w ∧ encode i = .cmd32 w) := by
  obtain ⟨-, ⟨hr, -⟩ | ⟨-, e, rfl⟩ | ⟨ht, hb, i, e, hd, hx⟩ | ⟨ht, w, i, e, hq, hd, hx⟩ |
    ⟨-, e, rfl⟩ | ⟨-, r, v, _, e, -, -, -, rfl⟩ | ⟨-, r, v, _, e, -, -, -, rfl⟩⟩ := step_cases h
  · exact absurd hr hn
  · exact .inl (SameButCerr.of_env s e).sameResults
  · exact .inr ⟨i, (exec_ownersOnly hx).of_env, .inl ⟨ht, hb, decodeUstep_code hd⟩⟩
  · exact .inr ⟨i, (exec_ownersOnly hx).of_env, .inr ⟨w, ⟨ht, hq⟩, decodeCmd_code hd⟩⟩
  · exact .inl { refuseIllegal_sameResults { s with env := e } with }
  · exact .inl { writeCfg_sameResults r v { s with env := e } with }
  · exact .inl { writeQry_sameResults r v { s with env := e } with }

/-- The rate cache changes only in `U_CACHE`, which completes `INIT` (R120, R121). -/
theorem step_rate {s t : State} (hc : ControlInv s) (hn : NotReset s) (h : step s = .next t) :
    t.rate = s.rate ∨ (nextTurn s = .block ∧ s.busy = true ∧ s.ustep = Ucode.cache ∧
      s.initDone = false ∧ t.initDone = true) := by
  cases ht : nextTurn s with
  | reset => exact absurd ht hn
  | host => exact .inl (step_host_effect ht h).hostFrame.rate
  | block =>
    obtain ⟨e, rfl⟩ | ⟨hb, i, e, hd, hx⟩ := step_block_cases ht h
    · exact .inl rfl
    · obtain rfl | hr := (exec_ownersOnly hx).rate
      · have hu : s.ustep = Ucode.cache := ustep_of_decode hd rfl
        obtain rfl := Host.Outcome.next.inj hx
        exact .inr ⟨rfl, hb, hu, hc.initOnce hb (by simp [hu]), rfl⟩
      · exact .inl hr

/-! ### The oscillators and the derivation -/

/-- `next_osc(k)` is the least oscillator in use above `k` (R130). -/
theorem nextOsc_of_least {s : State} {k j : BitVec 2} (hj : InUse s j) (hlt : k.toNat < j.toNat)
    (hleast : ∀ i, InUse s i → k.toNat < i.toNat → j.toNat ≤ i.toNat) : nextOsc s k = some j := by
  obtain ⟨below, above, hlist⟩ := List.append_of_mem (mem_inUse.mpr hj)
  refine List.find?_eq_some_iff_append.mpr ⟨by simpa using hlt, below, above, hlist, ?_⟩
  intro i hi
  have hmem : i ∈ inUse s := hlist ▸ List.mem_append_left _ hi
  have hsorted := inUse_sorted s
  rw [hlist, List.pairwise_append] at hsorted
  have hij := hsorted.2.2 i hi j (List.mem_cons_self ..)
  have := hleast i (mem_inUse.mp hmem)
  simp only [Bool.not_eq_true', decide_eq_false_iff_not]
  omega

theorem nextOsc_of_last {s : State} {k : BitVec 2} (h : ∀ j, InUse s j → j.toNat ≤ k.toNat) :
    nextOsc s k = none := by
  refine List.find?_eq_none.mpr fun j hj => ?_
  simpa using h j (mem_inUse.mp hj)

theorem exec_uOscPoll_of_ready {s : State}
    (h : s.params.readyBypass = true ∨ oscStatAnswer s = true) :
    exec .uOscPoll s = .next (oscStableNow (afterOscStat s.curK s)) := by
  simp only [exec, execUOscPoll]
  rw [if_pos (by simpa [ready] using h)]

theorem oscStableNow_of_next {s : State} {k : BitVec 2} (h : nextOsc s s.curK = some k) :
    oscStableNow s =
      goto Ucode.oscEn { s with oscStable := setBit4 s.oscStable s.curK, curK := k } := by
  simp only [oscStableNow, h]

theorem oscStableNow_of_last {s : State} (h : nextOsc s s.curK = none) :
    oscStableNow s = goto Ucode.derive { s with oscStable := setBit4 s.oscStable s.curK } := by
  simp only [oscStableNow, h]

theorem setBit4_getLsbD (x : BitVec 4) (k j : BitVec 2) :
    (setBit4 x k).getLsbD j.toNat = (decide (j = k) || x.getLsbD j.toNat) := by
  have hbit : ∀ k j : BitVec 2, ((1 : BitVec 4) <<< k.toNat).getLsbD j.toNat = decide (j = k) := by
    decide
  rw [setBit4, BitVec.getLsbD_or, hbit, Bool.or_comm]

/-! ### Turns -/

theorem popTurn_of_schedule {s : State} {turn : Turn} {sched : List Turn}
    (h : s.env.schedule = turn :: sched) :
    popTurn s = { s with env := { s.env with schedule := sched } } := by
  simp only [popTurn, h]

theorem nextTurn_of_schedule {s : State} {turn : Turn} {sched : List Turn}
    (h : s.env.schedule = turn :: sched) : nextTurn s = turn := by
  simp only [nextTurn, h]

/-! ### The reset state -/

theorem controlInv_reset {p : Params} (hok : p.ok = true) (e : Environment) :
    ControlInv { State.resetWith p with env := e } where
  paramsOk := hok
  pbusLength := List.length_replicate
  rateLength := (List.length_map _).trans (Params.ok_facts hok).bootRate
  codeHeld := Nat.zero_le _
  busyRuns h := by cases h
  restIdle _ _ := rfl
  haltedAt h := by cases h
  faultHalted := iff_of_true rfl rfl
  fatalLevel := rfl
  doneNotHalted _ := rfl
  initOnce h := by cases h
  feedReturn h := by obtain h | h := h <;> cases h
  disableEnabled h := by cases h
  disableNext h := by obtain h | h := h <;> cases h
  usbUsed h := by cases h
  busIndex h := by obtain h | h := h <;> cases h

theorem feedInv_reset (p : Params) (e : Environment) :
    FeedInv { State.resetWith p with env := e } where
  fed i ev h := by simp [State.resetWith, pendingFeed] at h
  feeds i b h := by simp [State.resetWith, pendingFeed] at h

/-! ### The register map (R26) -/

/-- What stands at an offset exists, and the offset is its own: of the 22 cases of the map, the last
is the bus dividers'. -/
theorem regAt_some {p : Params} {off : Nat} {r : Reg} (h : regAt p.numPbus off = some r) :
    RegExists p r ∧ regOffset r = off := by
  unfold regAt at h
  split at h
  case h_22 =>
    split at h
    · obtain rfl := Option.some.inj h
      refine ⟨fun n hn => ?_, ?_⟩
      · obtain rfl := Reg.pbusDiv.inj hn
        omega
      · simp only [regOffset]
        omega
    · cases h
  all_goals
    obtain rfl := Option.some.inj h
    exact ⟨fun n hn => (by cases hn), rfl⟩

theorem regAt_pbusDiv {np n : Nat} (hn : n < np) (hmax : np ≤ 16) :
    regAt np (0x040 + 4 * n) = some (.pbusDiv n) := by
  unfold regAt
  split
  case h_22 =>
    rw [if_pos (by omega)]
    congr 2
    omega
  all_goals omega

/-- Every register that exists stands at its offset. -/
theorem regAt_regOffset {p : Params} {r : Reg} (hr : RegExists p r) (hmax : p.numPbus ≤ 16) :
    regAt p.numPbus (regOffset r) = some r := by
  cases r with
  | pbusDiv n => exact regAt_pbusDiv (hr n rfl) hmax
  | oscFreq k =>
    have hk : ∀ k : BitVec 2, k = 0 ∨ k = 1 ∨ k = 2 ∨ k = 3 := by decide
    obtain rfl | rfl | rfl | rfl := hk k <;> rfl
  | _ => rfl

theorem registerTable_agrees : ∀ entry ∈ registerTable,
    regOffset entry.1 = entry.2.1 ∧ regClass entry.1 = entry.2.2 := by
  decide

theorem registerTable_complete (r : Reg) :
    (∃ n, r = .pbusDiv n) ∨ (r, regOffset r, regClass r) ∈ registerTable := by
  cases r with
  | pbusDiv n => exact .inl ⟨n, rfl⟩
  | oscFreq k =>
    right
    revert k
    decide
  | _ =>
    right
    decide

/-! ### The fields of a word (R27, R75) -/

theorem setWidth_low_eq_and (n : Nat) (v : Word) :
    (v.extractLsb' 0 n).setWidth 32 = v &&& (BitVec.allOnes n).setWidth 32 := by
  ext i hi
  simp [BitVec.getLsbD_eq_getElem hi, Bool.and_comm]

theorem setWidth_and_not_allOnes {n : Nat} (x : BitVec n) :
    x.setWidth 32 &&& ~~~ (BitVec.allOnes n).setWidth 32 = 0 := by
  ext i hi
  simpa using BitVec.lt_of_getLsbD

/-- A field that the mask has whole is the same in the masked word. -/
theorem extractLsb'_and_mask {lo n : Nat} {mask : Word}
    (h : mask.extractLsb' lo n = BitVec.allOnes n) (v : Word) :
    (v &&& mask).extractLsb' lo n = v.extractLsb' lo n := by
  rw [BitVec.extractLsb'_and, h, BitVec.and_allOnes]

theorem word_eq_mnFields (v : Word) :
    v.extractLsb' 24 8 ++ v.extractLsb' 16 8 ++ v.extractLsb' 0 16 = v := by
  rw [BitVec.extractLsb'_append_extractLsb'_eq_extractLsb' (start₂ := 24) (start₁ := 16) rfl,
    BitVec.extractLsb'_append_extractLsb'_eq_extractLsb' (start₂ := 16) (start₁ := 0) rfl]
  exact BitVec.extractLsb'_eq_self

theorem word_eq_usbFields (v : Word) :
    v.extractLsb' 16 16 ++ v.extractLsb' 8 8 ++ v.extractLsb' 1 7 ++
      BitVec.ofBool (v.getLsbD 0) = v := by
  have hbit : BitVec.ofBool (v.getLsbD 0) = v.extractLsb' 0 1 := by
    ext i hi
    obtain rfl : i = 0 := by omega
    simp
  rw [hbit,
    BitVec.extractLsb'_append_extractLsb'_eq_extractLsb' (start₂ := 16) (start₁ := 8) rfl,
    BitVec.extractLsb'_append_extractLsb'_eq_extractLsb' (start₂ := 8) (start₁ := 1) rfl,
    BitVec.extractLsb'_append_extractLsb'_eq_extractLsb' (start₂ := 1) (start₁ := 0) rfl]
  exact BitVec.extractLsb'_eq_self

/-- The mask of a pair keeps `N` and `M`. -/
theorem mnFields_and_mask (a n : BitVec 8) (m : BitVec 16) :
    (a ++ n ++ m) &&& ((0 : BitVec 8) ++ BitVec.allOnes 8 ++ BitVec.allOnes 16) =
      (0 : BitVec 8) ++ n ++ m := by
  simp only [BitVec.and_append, BitVec.and_allOnes]
  simp

/-- The mask of `USB_CFG` keeps `USB_DIV` and `USB_EN`. -/
theorem usbFields_and_mask (a : BitVec 16) (d : BitVec 8) (b : BitVec 7) (e : BitVec 1) :
    (a ++ d ++ b ++ e) &&&
      ((0 : BitVec 16) ++ BitVec.allOnes 8 ++ (0 : BitVec 7) ++ BitVec.allOnes 1) =
      (0 : BitVec 16) ++ d ++ (0 : BitVec 7) ++ e := by
  simp only [BitVec.and_append, BitVec.and_allOnes]
  simp

theorem mnWord_mnOfWord (v : Word) : mnWord (mnOfWord v) = v &&& 0x00FFFFFF := by
  have h := mnFields_and_mask (v.extractLsb' 24 8) (v.extractLsb' 16 8) (v.extractLsb' 0 16)
  rw [word_eq_mnFields] at h
  exact h.symm

theorem usbWord_of_word (v : Word) :
    usbWord (v.getLsbD 0) (v.extractLsb' 8 8) = v &&& 0x0000FF01 := by
  have h := usbFields_and_mask (v.extractLsb' 16 16) (v.extractLsb' 8 8) (v.extractLsb' 1 7)
    (BitVec.ofBool (v.getLsbD 0))
  rw [word_eq_usbFields] at h
  exact h.symm

theorem mnWord_reserved (x : MN) : mnWord x &&& ~~~ 0x00FFFFFF = 0 := by
  have h : ((0 : BitVec 8) ++ x.n ++ x.m) &&&
      (BitVec.allOnes 8 ++ (0 : BitVec 8) ++ (0 : BitVec 16)) = 0 := by
    simp only [BitVec.and_append]
    simp
  exact h

theorem usbWord_reserved (en : Bool) (d : Byte) : usbWord en d &&& ~~~ 0x0000FF01 = 0 := by
  have h : ((0 : BitVec 16) ++ d ++ (0 : BitVec 7) ++ BitVec.ofBool en) &&&
      (BitVec.allOnes 16 ++ (0 : BitVec 8) ++ BitVec.allOnes 7 ++ (0 : BitVec 1)) = 0 := by
    simp only [BitVec.and_append]
    simp
  exact h

theorem oscStatusWord_reserved (stable enabled : BitVec 4) :
    oscStatusWord stable enabled &&& ~~~ 0x000000FF = 0 := by
  have h : ((0 : BitVec 24) ++ stable ++ enabled) &&&
      (BitVec.allOnes 24 ++ (0 : BitVec 4) ++ (0 : BitVec 4)) = 0 := by
    simp only [BitVec.and_append]
    simp
  exact h

theorem statusWord_reserved (s : State) : statusWord s &&& ~~~ 0x03FFFF7F = 0 := by
  have h (u : BitVec 6) (c f p : BitVec 4) (q : BitVec 3) (ok halted done busy : BitVec 1) :
      ((0 : BitVec 6) ++ u ++ c ++ f ++ p ++ (0 : BitVec 1) ++ q ++
          ok ++ halted ++ done ++ busy) &&&
        (BitVec.allOnes 6 ++ (0 : BitVec 6) ++ (0 : BitVec 4) ++ (0 : BitVec 4) ++ (0 : BitVec 4) ++
          BitVec.allOnes 1 ++ (0 : BitVec 3) ++ (0 : BitVec 1) ++ (0 : BitVec 1) ++
          (0 : BitVec 1) ++ (0 : BitVec 1)) = 0 := by
    simp only [BitVec.and_append]
    simp
  exact h ..

/-! ### What a read returns -/

theorem windowRead_of_regAt {s : State} {off : Nat} {r : Reg}
    (h : regAt s.params.numPbus off = some r) : windowRead s off = readReg r s := by
  simp only [windowRead, h]

theorem windowRead_of_reserved {s : State} {off : Nat}
    (h : regAt s.params.numPbus off = none) : windowRead s off = 0 := by
  simp only [windowRead, h]

/-- Reserved bits read 0 (R27). -/
theorem readReg_reserved (r : Reg) (s : State) : readReg r s &&& ~~~ regMask r = 0 := by
  cases r with
  | cmd => exact BitVec.zero_and
  | status => exact statusWord_reserved s
  | oscEn => exact setWidth_and_not_allOnes s.oscEn
  | clkSrc => exact setWidth_and_not_allOnes s.clkSrc
  | pllMode => exact setWidth_and_not_allOnes s.pllMode
  | cpuDiv => exact setWidth_and_not_allOnes s.cpuDiv
  | pbusDiv n => exact setWidth_and_not_allOnes (pbusDivOf s n)
  | fixedMN => exact mnWord_reserved s.fixedMN
  | synMNIn => exact mnWord_reserved s.synMN
  | usbCfg => exact usbWord_reserved s.usbEn s.usbDiv
  | oscStatus => exact oscStatusWord_reserved s.oscStable s.oscEnabled
  | rateOut | pllResult | oscFreq | desiredFreq | synFin | synFout | synResult | synFcco =>
    have hnone : ~~~ (0xFFFFFFFF : Word) = 0 := by decide
    simp only [regMask, hnone]
    exact BitVec.and_zero

/-- What is written to a reserved bit is dropped (R27). -/
theorem storeReg_and_mask (r : Reg) (v : Word) (s : State) :
    storeReg r v s = storeReg r (v &&& regMask r) s := by
  have hword : v &&& 0xFFFFFFFF = v := BitVec.and_allOnes
  cases r with
  | oscFreq | desiredFreq | synFin | synFout => simp only [storeReg, regMask, hword]
  | oscEn | clkSrc | pllMode | cpuDiv | pbusDiv =>
    simp only [storeReg, regMask]
    rw [extractLsb'_and_mask (by decide)]
  | fixedMN | synMNIn =>
    simp only [storeReg, regMask, mnOfWord]
    rw [extractLsb'_and_mask (by decide), extractLsb'_and_mask (by decide)]
  | usbCfg =>
    have hbit : (v &&& 0x0000FF01).getLsbD 0 = v.getLsbD 0 := by simp
    simp only [storeReg, regMask]
    rw [extractLsb'_and_mask (by decide), hbit]
  | cmd | status | rateOut | pllResult | oscStatus | synResult | synFcco => rfl

/-- Bits 31:16 of a command word are checked (R27, R77). -/
theorem illegalWord_of_reserved {np : Nat} {v : Word} (h : 0x10000 ≤ v.toNat) :
    illegalWord np v = true := by
  have hz : cmdZ v ≠ 0 := by
    intro hz
    have hupper : 0 = v.toNat / 65536 := (congrArg BitVec.toNat hz).symm.trans (cmdZ_toNat v)
    omega
  simp only [illegalWord, decodeCmd, if_pos hz]

/-! ### Reading back -/

/-- A word stored in a `CFG` or `QRY` register is read back under its mask. -/
theorem readReg_storeReg_same {r : Reg} {v : Word} {s : State}
    (hclass : regClass r = .cfg ∨ regClass r = .qry)
    (hbus : ∀ n, r = .pbusDiv n → n < s.pbusDiv.length) :
    readReg r (storeReg r v s) = v &&& regMask r := by
  have hword : v &&& 0xFFFFFFFF = v := BitVec.and_allOnes
  cases r with
  | oscFreq k => exact (Vector.getElem_set_self _).trans hword.symm
  | desiredFreq | synFin | synFout => exact hword.symm
  | oscEn => exact setWidth_low_eq_and 4 v
  | clkSrc | pllMode => exact setWidth_low_eq_and 2 v
  | cpuDiv => exact setWidth_low_eq_and 8 v
  | pbusDiv n =>
    have hn : pbusDivOf (storeReg (.pbusDiv n) v s) n = v.extractLsb' 0 8 := by
      simp [pbusDivOf, storeReg, hbus n rfl]
    simp only [readReg, hn]
    exact setWidth_low_eq_and 8 v
  | fixedMN | synMNIn => exact mnWord_mnOfWord v
  | usbCfg => exact usbWord_of_word v
  | cmd | status | rateOut | pllResult | oscStatus | synResult | synFcco =>
    simp [regClass] at hclass

/-- A store changes no other register: each is a field of its own, but for the four oscillators and
the buses, which share one. -/
theorem readReg_storeReg_ne {r r' : Reg} (v : Word) (s : State) (hne : r' ≠ r) :
    readReg r' (storeReg r v s) = readReg r' s := by
  cases r with
  | oscFreq k =>
    cases r' with
    | oscFreq j =>
      have hjk : k.toNat ≠ j.toNat := fun h =>
        hne (congrArg Reg.oscFreq (BitVec.eq_of_toNat_eq h.symm))
      exact Vector.getElem_set_ne k.isLt j.isLt hjk
    | _ => rfl
  | pbusDiv n =>
    cases r' with
    | pbusDiv m =>
      have hnm : n ≠ m := fun h => hne (congrArg Reg.pbusDiv h.symm)
      simp [readReg, pbusDivOf, storeReg, List.getElem?_set_ne hnm]
    | _ => rfl
  | _ =>
    cases r' <;> first
      | exact absurd rfl hne
      | rfl

/-! ### The words as numbers (R28, R75) -/

theorem mnWord_toNat (x : MN) : (mnWord x).toNat = x.m.toNat + 2 ^ 16 * x.n.toNat := by
  rw [mnWord, toNat_append_add, toNat_append_add]
  simp
  omega

theorem tripleWord_toNat (t : Triple) :
    (tripleWord t).toNat = t.m.toNat + 2 ^ 16 * t.n.toNat + 2 ^ 24 * t.d.toNat := by
  rw [tripleWord, toNat_append_add, toNat_append_add]
  omega

theorem usbWord_toNat (en : Bool) (d : Byte) :
    (usbWord en d).toNat = en.toNat + 2 ^ 8 * d.toNat := by
  rw [usbWord, toNat_append_add, toNat_append_add, toNat_append_add]
  simp
  omega

theorem oscStatusWord_toNat (stable enabled : BitVec 4) :
    (oscStatusWord stable enabled).toNat = enabled.toNat + 2 ^ 4 * stable.toNat := by
  rw [oscStatusWord, toNat_append_add, toNat_append_add]
  simp
  omega

theorem statusWord_toNat (s : State) : (statusWord s).toNat =
    s.busy.toNat + 2 * s.initDone.toNat + 4 * s.halted.toNat + 8 * s.synOk.toNat +
      2 ^ 4 * (seqStateCode s.seqState).toNat + 2 ^ 8 * (phaseOf s.ustep).toNat +
      2 ^ 12 * (faultCode s.fault).toNat + 2 ^ 16 * (cmdErrorCode s.cerr).toNat +
      2 ^ 20 * s.ustep.toNat := by
  simp only [statusWord, toNat_append_add, BitVec.toNat_ofBool]
  simp
  omega

theorem zeroExtend_toNat {n : Nat} (h : n ≤ 32) (x : BitVec n) :
    (x.zeroExtend 32).toNat = x.toNat :=
  BitVec.toNat_setWidth_of_le h

theorem windowRead_pbusDiv_toNat {s : State} {n : Nat} (hn : n < s.params.numPbus)
    (hmax : s.params.numPbus ≤ 16) :
    (windowRead s (0x040 + 4 * n)).toNat = (pbusDivOf s n).toNat := by
  rw [windowRead_of_regAt (regAt_pbusDiv hn hmax)]
  exact zeroExtend_toNat (by decide) _

/-! ### A host write by class (R58) -/

theorem hostAccess_write {run : Instr → State → Result} {s : State} {off : Nat} (v : Word)
    (halign : off % 4 = 0) (hmax : off ≤ 0xFC) :
    hostAccess run (.write (s.params.blockBase + off) 4 v) s = windowWrite run off v s := by
  have hadmitted : admitted s (s.params.blockBase + off) 4 = true := by
    simp [admitted, halign, hmax]
  simp only [hostAccess, hadmitted, if_true, Nat.add_sub_cancel_left]

theorem windowWrite_of_reserved {run : Instr → State → Result} {s : State} {off : Nat} {v : Word}
    (h : regAt s.params.numPbus off = none) : windowWrite run off v s = .next s := by
  simp only [windowWrite, h]

theorem windowWrite_of_ro {run : Instr → State → Result} {s : State} {off : Nat} {v : Word}
    {r : Reg} (h : regAt s.params.numPbus off = some r) (hc : regClass r = .ro) :
    windowWrite run off v s = .next s := by
  simp only [windowWrite, h, hc]

theorem windowWrite_of_cfg {run : Instr → State → Result} {s : State} {off : Nat} {v : Word}
    {r : Reg} (h : regAt s.params.numPbus off = some r) (hc : regClass r = .cfg) :
    windowWrite run off v s = .next (writeCfg r v s) := by
  simp only [windowWrite, h, hc]

theorem windowWrite_of_qry {run : Instr → State → Result} {s : State} {off : Nat} {v : Word}
    {r : Reg} (h : regAt s.params.numPbus off = some r) (hc : regClass r = .qry) :
    windowWrite run off v s = .next (writeQry r v s) := by
  simp only [windowWrite, h, hc]

theorem storeReg_cerr (r : Reg) (v : Word) (s : State) : (storeReg r v s).cerr = s.cerr := by
  cases r <;> rfl

theorem regClass_eq (r : Reg) : regClass r =
    if r = .cmd then .wo
    else if r = .status ∨ r = .rateOut ∨ r = .pllResult ∨ r = .oscStatus ∨ r = .synResult ∨
      r = .synFcco then .ro
    else if r = .synFin ∨ r = .synFout ∨ r = .synMNIn then .qry
    else .cfg := by
  cases r <;> simp [regClass]

/-! ### The window after reset -/

theorem readReg_reset (p : Params) (e : Environment) (r : Reg) :
    readReg r { State.resetWith p with env := e } = 0 := by
  cases r with
  | oscFreq k =>
    have hfreq : ∀ k : BitVec 2, (#v[0, 0, 0, 0] : Vector Word 4)[k.toNat]'(k.isLt) = 0 := by
      decide
    exact hfreq k
  | pbusDiv n =>
    have hdiv : pbusDivOf { State.resetWith p with env := e } n = 0 := by
      simp [pbusDivOf, State.resetWith, List.getElem?_replicate]
      split <;> rfl
    simp only [readReg, hdiv]
    rfl
  | status =>
    have hstatus : statusWord State.reset = 0 := by decide
    exact hstatus
  | pllResult | synResult =>
    have htriple : tripleWord ⟨0, 0, 0⟩ = 0 := by decide
    exact htriple
  | fixedMN | synMNIn =>
    have hpair : mnWord ⟨0, 0⟩ = 0 := by decide
    exact hpair
  | usbCfg =>
    have husb : usbWord false 0 = 0 := by decide
    exact husb
  | oscStatus =>
    have hosc : oscStatusWord 0 0 = 0 := by decide
    exact hosc
  | _ => rfl

theorem windowRead_reset (p : Params) (e : Environment) (off : Nat) :
    windowRead { State.resetWith p with env := e } off = 0 := by
  unfold windowRead
  split
  · exact readReg_reset p e _
  · rfl

/-! ### The obligations -/

/-- Settles O53: a reset, a host's turn and a micro-step each keep the data invariant. -/
theorem dataInvKept : Obligations.DataInvKept := fun _ _ hc hinv h =>
  step_keeps hc hinv dataInv_reset hostMove_dataInv exec_dataInv h

/-- Settles O54: a pair is written from `PLL_RESULT` by `U_CFG` alone, and `PLL_RESULT` and the
configuration do not change after it. -/
theorem writtenPairsLegal : Obligations.WrittenPairsLegal :=
  ⟨fun _ _ hc _ hpair h => step_keeps hc hpair pairInv_reset hostMove_pairInv exec_pairInv h,
    fun _ _ _ _ hdata hpair hmem => pair_written_legal hdata hpair hmem⟩

/-- Settles O55: a reset, a host's turn and a micro-step each keep the sequencer's invariant. -/
theorem seqInvKept : Obligations.SeqInvKept := fun _ _ hc hinv h =>
  step_keeps hc hinv seqInv_reset hostMove_seqInv exec_seqInv h

/-- Settles O8: the map and the offsets are inverse to each other, and the table lists both. -/
theorem registerMap : Obligations.RegisterMap := by
  refine ⟨fun p off r hmax => ⟨regAt_some, fun ⟨hr, hoff⟩ => hoff ▸ regAt_regOffset hr hmax⟩,
    fun r off c hmem => registerTable_agrees _ hmem, fun n => ⟨rfl, rfl⟩, registerTable_complete⟩

/-- Settles O9: reserved bits have no storage, and a command's are checked when it is decoded. -/
theorem reservedReadsZero : Obligations.ReservedReadsZero := by
  refine ⟨fun s off v hnone => ⟨windowRead_of_reserved hnone, ?_⟩, fun s off r hr => ?_,
    fun s r v => storeReg_and_mask r v s, fun np v h => illegalWord_of_reserved h⟩
  · exact windowWrite_of_reserved hnone
  · rw [windowRead_of_regAt hr]
    exact readReg_reserved r s

/-- Settles O10: the register at another offset is another register. -/
theorem readBackAfterStore : Obligations.ReadBackAfterStore := by
  intro s off r v hmax hlen hr hclass
  have hparams : (storeReg r v s).params = s.params := (storeReg_hostFrame r v s).params
  obtain ⟨hexists, hoff⟩ := regAt_some hr
  refine ⟨?_, fun off' hne => ?_⟩
  · rw [windowRead_of_regAt (hparams ▸ hr)]
    exact readReg_storeReg_same hclass fun n hn => hlen ▸ hexists n hn
  · cases hr' : regAt s.params.numPbus off' with
    | none => rw [windowRead_of_reserved hr', windowRead_of_reserved (hparams ▸ hr')]
    | some r' =>
      rw [windowRead_of_regAt hr', windowRead_of_regAt (hparams ▸ hr')]
      refine readReg_storeReg_ne v s fun heq => hne ?_
      rw [← (regAt_some hr').2, heq, hoff]

/-- Settles O15: the write reaches the register's class, and the class checks `HALTED`, `BUSY` and
`INIT_DONE` in this order. -/
theorem hostWriteByClass : Obligations.HostWriteByClass := by
  refine ⟨regClass_eq, fun s off v halign hmax t ht => ?_⟩
  rw [hostAccess_write v halign hmax] at ht
  subst ht
  refine ⟨windowWrite_of_reserved, fun r hr => ⟨windowWrite_of_ro hr, ?_, ?_, ?_, ?_, ?_⟩⟩
  · rintro (hc | hc) hh
    · simp [windowWrite_of_cfg hr hc, writeCfg, hh, reject]
    · simp [windowWrite_of_qry hr hc, writeQry, hh, reject]
  · rintro (hc | hc) hh hb
    · simp [windowWrite_of_cfg hr hc, writeCfg, hh, hb, reject]
    · simp [windowWrite_of_qry hr hc, writeQry, hh, hb, reject]
  · intro hc hh hb hi
    simp [windowWrite_of_cfg hr hc, writeCfg, hh, hb, hi, reject]
  · intro hc hh hb hi
    exact ⟨by simp [windowWrite_of_cfg hr hc, writeCfg, hh, hb, hi], storeReg_cerr r v s⟩
  · intro hc hh hb
    exact ⟨by simp [windowWrite_of_qry hr hc, writeQry, hh, hb], storeReg_cerr r v s⟩

/-- Settles O30: `next_osc` is the least oscillator in use above the current one. -/
theorem oscillatorSteps : Obligations.OscillatorSteps := by
  intro s
  refine ⟨rfl, fun hbypass hanswer => ?_,
    fun hready => ⟨fun k hk hlt hleast => ?_, fun hlast => ?_⟩, setBit4_getLsbD⟩
  · simp [exec, execUOscPoll, ready, hbypass, hanswer, afterOscStat, emit, goto]
  · have hnext : nextOsc (afterOscStat s.curK s) s.curK = some k := nextOsc_of_least hk hlt hleast
    rw [exec_uOscPoll_of_ready hready, oscStableNow_of_next hnext]
    rfl
  · have hnext : nextOsc (afterOscStat s.curK s) s.curK = none := nextOsc_of_last hlast
    rw [exec_uOscPoll_of_ready hready, oscStableNow_of_last hnext]
    rfl

/-- Settles O31: the chosen triple fits its register, and no rate limit faults. -/
theorem derivePasses : Obligations.DerivePasses := by
  intro s c hok hchosen hcpu husb
  obtain ⟨hm, hn, hd⟩ := choiceTriple_toNat_of_chosen hchosen (Params.ok_facts hok)
  refine ⟨choiceTriple c, hm, hn, hd, ?_⟩
  simp only [exec, execUDerive]
  rw [if_neg (mode_of_chosen hchosen), deriveStep_of_chosen hchosen hcpu husb]
  rfl

/-- Settles O42: a step that changes a result register runs its owner. -/
theorem resultRegistersChangeOnlyBy : Obligations.ResultRegistersChangeOnlyBy := by
  intro s t hn h
  obtain hsame | ⟨i, howners, hruns⟩ := step_results hn h
  · exact ⟨fun hne => absurd hsame.rateOut hne, fun hne => absurd hsame.pllResult hne,
      fun hne => by simp [hsame.synResult, hsame.synFcco] at hne⟩
  refine ⟨fun hne => ?_, fun hne => ?_, fun hne => ?_⟩
  · obtain ⟨d, rfl⟩ := howners.rateOut.resolve_right hne
    obtain ⟨-, -, hcode⟩ | ⟨w, hw, hcode⟩ := hruns
    · cases hcode
    · exact ⟨d, w, hw, hcode⟩
  · obtain rfl := howners.pllResult.resolve_right hne
    obtain ⟨ht, hb, hcode⟩ | ⟨w, -, hcode⟩ := hruns
    · exact ⟨ht, hb, (CodeWord.ustep6.inj hcode).symm⟩
    · cases hcode
  · obtain rfl | rfl | ⟨hr, hf⟩ := howners.synthesis
    · obtain ⟨-, -, hcode⟩ | ⟨w, hw, hcode⟩ := hruns
      · cases hcode
      · obtain rfl : (0x00000003 : Word) = w := CodeWord.cmd32.inj hcode
        exact .inl hw
    · obtain ⟨ht, hb, hcode⟩ | ⟨w, -, hcode⟩ := hruns
      · exact .inr ⟨ht, hb, (CodeWord.ustep6.inj hcode).symm⟩
      · cases hcode
    · simp [hr, hf] at hne

/-- Settles O47: `U_CACHE` alone changes the cache, and it runs only before `INIT_DONE`. -/
theorem cacheWrittenOnce : Obligations.CacheWrittenOnce := by
  intro s t hc hn h
  have hrate := step_rate hc hn h
  refine ⟨hrate.resolve_left, fun hdone => ⟨(step_sticky hn h).initDone hdone, ?_⟩⟩
  exact hrate.resolve_right fun ⟨_, _, _, hnew, _⟩ => by simp [hdone] at hnew

/-- Settles O5: the block's turn runs what `ustep` decodes to, and only while `BUSY = 1`. -/
theorem stepRunsMicroStep : Obligations.StepRunsMicroStep := by
  intro s i sched hok hsched
  have hstep := step_of_block hok (nextTurn_of_schedule hsched)
  rw [popTurn_of_schedule hsched] at hstep
  refine ⟨fun hb hcode => ?_, fun hb => ?_⟩
  · exact hstep.trans (blockTurn_of_ok hb (decodeUstep_of_encode hcode))
  · rw [hstep, blockTurn, if_neg (by simp [hb])]

/-- Settles O7: the step is the platform's reset, and every register of it reads 0. -/
theorem resetTurnResets : Obligations.ResetTurnResets := by
  intro s sched hok hsched
  have hstep : step s = .next (platformReset (popTurn s)) := by
    simp only [step, stepWith, hok, if_true, nextTurn_of_schedule hsched]
  rw [popTurn_of_schedule hsched] at hstep
  exact ⟨_, hstep, rfl, rfl, fun off _ => windowRead_reset _ _ off, rfl, rfl, rfl, rfl, rfl, rfl,
    rfl, rfl, rfl, rfl, rfl, rfl, rfl, rfl, rfl, rfl⟩

/-- Settles O12: each offset is its register's, and each word the number of its fields. -/
theorem registerWords : Obligations.RegisterWords := fun s =>
  ⟨rfl, tripleWord_toNat _, rfl, rfl, rfl, rfl, zeroExtend_toNat (by decide) _,
    zeroExtend_toNat (by decide) _, zeroExtend_toNat (by decide) _, rfl, mnWord_toNat _,
    zeroExtend_toNat (by decide) _, usbWord_toNat _ _, oscStatusWord_toNat _ _,
    fun _ hn hmax => windowRead_pbusDiv_toNat hn hmax, rfl, rfl, mnWord_toNat _,
    tripleWord_toNat _, rfl⟩

/-- Settles O13: `STATUS` stands at 0x004, and each field's place is the width below it. -/
theorem statusFields : Obligations.StatusFields := statusWord_toNat

/-- Settles O14: the tables of the codes, and the phase of each of the held codes. -/
theorem fieldCodesAndPhases : Obligations.FieldCodesAndPhases :=
  ⟨by decide, by decide, by decide, by decide⟩

/-- Settles O48: after reset the block is idle, its trace empty and its cache the boot rates. -/
theorem invariantsAtReset : Obligations.InvariantsAtReset := fun p hok =>
  ⟨controlInv_reset hok .empty, feedInv_reset p .empty, dataInv_reset p .empty,
    pairInv_reset p .empty, seqInv_reset p .empty⟩

end Sys2Proof.Proofs

/-! PROOFS. The statements of 20_memory.md. First the commands that a host write runs, the lanes and
the admitted accesses; then all that can stop a step; then the obligations. -/

namespace Sys2Proof.Proofs

open Sys2Proof.Machine Sys2Proof.Safety

/-! ### The word of a command (R73, R76) -/

theorem decodeCmd_of_encode {i : Instr} {w : Word} (h : encode i = .cmd32 w) :
    decodeCmd w = .ok i := by
  cases i with
  | nop | init | synth | checkFixed =>
    cases h
    rfl
  | getRate d =>
    have hround : decode (encode (.getRate d)) = .ok (.getRate d) := Laws.RoundTrip.getRate d
    rwa [h] at hround
  | _ => cases h

theorem tableCodeWord_cmd32 (w : Word) : tableCodeWord 32 w.toNat = some (.cmd32 w) := by
  have hlt : w.toNat < 4294967296 := w.isLt
  simp [tableCodeWord, hlt]

theorem tableCodeWord_ustep6 (u : BitVec 6) : tableCodeWord 8 u.toNat = some (.ustep6 u) := by
  have hlt : u.toNat < 64 := u.isLt
  simp [tableCodeWord, hlt]

/-! ### The lanes of a word (R55) -/

theorem lane_toNat (v : Word) (i : Nat) : (lane v i).toNat = v.toNat / 2 ^ (8 * i) % 256 := by
  simp [lane, BitVec.extractLsb'_toNat, Nat.shiftRight_eq_div_pow]

theorem ofLanes_toNat (b0 b1 b2 b3 : Byte) : (ofLanes b0 b1 b2 b3).toNat =
    b0.toNat + 2 ^ 8 * b1.toNat + 2 ^ 16 * b2.toNat + 2 ^ 24 * b3.toNat := by
  rw [ofLanes, toNat_append_add, toNat_append_add, toNat_append_add]
  omega

/-! ### Which accesses are admitted (R56) -/

theorem admitted_iff {s : State} {off size : Nat} :
    admitted s (s.params.blockBase + off) size = true ↔ size = 4 ∧ off % 4 = 0 ∧ off ≤ 0xFC := by
  simp [admitted, and_assoc]

theorem touchesWindow_of_inside {s : State} {off size : Nat} (hoff : off < 256) (hsize : 0 < size) :
    touchesWindow s (s.params.blockBase + off) size = true := by
  simp only [touchesWindow, Bool.and_eq_true, decide_eq_true_eq]
  omega

theorem notAdmitted_eq_refused_iff {s : State} {addr size : Nat} {r : Refusal} :
    notAdmitted addr size s = .refused r ↔
      touchesWindow s addr size = true ∧ r = .busError addr size := by
  cases ht : touchesWindow s addr size <;> simp [notAdmitted, ht, eq_comm]

theorem notAdmitted_eq_fault_iff {s : State} {addr size : Nat} {f : Fault} :
    notAdmitted addr size s = .fault f ↔
      touchesWindow s addr size = false ∧ f = .outsideWindow addr := by
  cases ht : touchesWindow s addr size <;> simp [notAdmitted, ht, eq_comm]

theorem hostAccess_read {run : Instr → State → Result} {s : State} {off : Nat}
    (halign : off % 4 = 0) (hmax : off ≤ 0xFC) :
    hostAccess run (.read (s.params.blockBase + off) 4) s = .next (windowReadStep off s) := by
  simp only [hostAccess, admitted_iff.mpr ⟨rfl, halign, hmax⟩, if_true, Nat.add_sub_cancel_left]

theorem hostAccess_read_notAdmitted {run : Instr → State → Result} {s : State} {addr size : Nat}
    (h : admitted s addr size = false) :
    hostAccess run (.read addr size) s = notAdmitted addr size s :=
  if_neg (by simp [h])

theorem hostAccess_write_notAdmitted {run : Instr → State → Result} {s : State} {addr size : Nat}
    {v : Word} (h : admitted s addr size = false) :
    hostAccess run (.write addr size v) s = notAdmitted addr size s :=
  if_neg (by simp [h])

theorem hostAccess_write_cmd {run : Instr → State → Result} {s : State} (w : Word) :
    hostAccess run (.write s.params.blockBase 4 w) s = hostCommand run w s :=
  hostAccess_write (off := 0) w rfl (Nat.zero_le _)

theorem hostCommand_of_ok {run : Instr → State → Result} {s : State} {w : Word} {i : Instr}
    (h : decodeCmd w = .ok i) : hostCommand run w s = run i s := by
  simp only [hostCommand, h]

/-! ### The turns of the host and of a block at rest -/

theorem step_of_host {s : State} (hok : s.params.ok = true) (ht : nextTurn s = .host) :
    step s = hostTurn exec (popTurn s) := by
  simp only [step, stepWith, hok, if_true, ht]

theorem hostTurn_of_queue {run : Instr → State → Result} {s : State} {a : HostAccess}
    {q : List HostAccess} (h : s.env.hostQueue = a :: q) :
    hostTurn run s = hostAccess run a { s with env := { s.env with hostQueue := q } } := by
  simp only [hostTurn, popHost, h, List.tail_cons]

theorem blockTurn_of_rest {run : Instr → State → Result} {s : State} (hb : s.busy = false) :
    blockTurn run s = .next s :=
  if_neg (by simp [hb])

/-! ### What can stop a step -/

/-- An instruction has a meaning in every state, but for `U_DERIVE` in the reserved mode (R134). -/
theorem exec_next_or_reserved (i : Instr) (s : State) :
    (∃ t, exec i s = .next t) ∨
      (i = .uDerive ∧ s.pllMode = modeReserved ∧ exec i s = .refused .reservedMode) := by
  cases i with
  | uDerive =>
    by_cases hm : s.pllMode = modeReserved
    · exact .inr ⟨rfl, hm, if_pos hm⟩
    · exact .inl ⟨deriveStep s, if_neg hm⟩
  | _ => exact .inl ⟨_, rfl⟩

/-- A command has a meaning in every state. -/
theorem exec_command_next {i : Instr} (hi : i.format = .cmd32) (s : State) :
    ∃ t, exec i s = .next t := by
  obtain hnext | ⟨rfl, -⟩ := exec_next_or_reserved i s
  · exact hnext
  · cases hi

theorem hostCommand_next (v : Word) (s : State) : ∃ t, hostCommand exec v s = .next t := by
  cases hd : decodeCmd v with
  | ok i =>
    rw [hostCommand_of_ok hd]
    exact exec_command_next (decodeCmd_format hd) s
  | error e => exact ⟨refuseIllegal s, by simp only [hostCommand, hd]⟩

/-- A write inside the window never stops, whatever stands at its offset (R58). -/
theorem windowWrite_next (off : Nat) (v : Word) (s : State) :
    ∃ t, windowWrite exec off v s = .next t := by
  cases hr : regAt s.params.numPbus off with
  | none => exact ⟨s, windowWrite_of_reserved hr⟩
  | some r =>
    cases hc : regClass r with
    | cfg => exact ⟨_, windowWrite_of_cfg hr hc⟩
    | qry => exact ⟨_, windowWrite_of_qry hr hc⟩
    | ro => exact ⟨_, windowWrite_of_ro hr hc⟩
    | wo =>
      simp only [windowWrite, hr, hc]
      exact hostCommand_next v s

/-- A host access goes on, or it is not admitted. -/
theorem hostAccess_next_or_notAdmitted (a : HostAccess) (s : State) :
    (∃ t, hostAccess exec a s = .next t) ∨
      ∃ addr size, (a = .read addr size ∨ ∃ v, a = .write addr size v) ∧
        admitted s addr size = false ∧ hostAccess exec a s = notAdmitted addr size s := by
  cases a with
  | read addr size =>
    cases had : admitted s addr size with
    | true => exact .inl ⟨_, if_pos had⟩
    | false => exact .inr ⟨addr, size, .inl rfl, had, hostAccess_read_notAdmitted had⟩
  | write addr size v =>
    cases had : admitted s addr size with
    | true =>
      obtain ⟨t, hw⟩ := windowWrite_next (addr - s.params.blockBase) v s
      exact .inl ⟨t, (if_pos had).trans hw⟩
    | false => exact .inr ⟨addr, size, .inr ⟨v, rfl⟩, had, hostAccess_write_notAdmitted had⟩

/-- All that can stop a step of `s` with the outcome `r`: parameters that are no configuration, the
host's next access, and, at a busy block, a code that is no micro-step or `U_DERIVE` in the reserved
mode. -/
inductive Stop (s : State) (r : Result) : Prop
  | parameters (bad : s.params.ok = false) (outcome : r = .refused .notAConfiguration)
  | access (turn : nextTurn s = .host) (addr size : Nat) (next : HostAccessIs s addr size)
      (bad : admitted s addr size = false) (outcome : r = notAdmitted addr size s)
  | code (running : s.busy = true) (bad : 0x14 < s.ustep.toNat)
      (outcome : r = .refused (.noSuchMicroStep s.ustep))
  | mode (running : s.busy = true) (derives : s.ustep = Ucode.derive)
      (bad : s.pllMode = modeReserved) (outcome : r = .refused .reservedMode)

theorem step_host_next_or_stop {s : State} (hok : s.params.ok = true) (ht : nextTurn s = .host) :
    (∃ t, step s = .next t) ∨ Stop s (step s) := by
  obtain ⟨e, hpop, hqueue⟩ := popTurn_eq s
  have hstep := step_of_host hok ht
  rw [hpop] at hstep
  cases hq : s.env.hostQueue with
  | nil =>
    have hnone : e.hostQueue = [] := hqueue.trans hq
    exact .inl ⟨{ s with env := e }, hstep.trans (by simp only [hostTurn, hnone])⟩
  | cons a q =>
    rw [hostTurn_of_queue (hqueue.trans hq)] at hstep
    rw [hstep]
    obtain hnext | ⟨addr, size, ha, had, hstop⟩ := hostAccess_next_or_notAdmitted a
      { s with env := { e with hostQueue := q } }
    · exact .inl hnext
    · refine .inr (.access ht addr size ?_ had hstop)
      simpa [HostAccessIs, hq] using ha

theorem step_block_next_or_stop {s : State} (hok : s.params.ok = true) (ht : nextTurn s = .block) :
    (∃ t, step s = .next t) ∨ Stop s (step s) := by
  obtain ⟨e, hpop, -⟩ := popTurn_eq s
  have hstep := step_of_block hok ht
  rw [hpop] at hstep
  cases hb : s.busy with
  | false => exact .inl ⟨{ s with env := e }, hstep.trans (blockTurn_of_rest hb)⟩
  | true =>
    cases hd : decodeUstep s.ustep with
    | ok i =>
      rw [hstep.trans (blockTurn_of_ok hb hd)]
      obtain hnext | ⟨rfl, hm, hstop⟩ := exec_next_or_reserved i { s with env := e }
      · exact .inl hnext
      · exact .inr (.mode hb (ustep_of_decode hd rfl) hm hstop)
    | error err =>
      refine .inr (.code hb ?_ (hstep.trans (blockTurn_of_error hb hd)))
      by_contra hheld
      obtain ⟨i, hi⟩ := decodeUstep_held s.ustep (Nat.le_of_not_lt hheld)
      simp [hd] at hi

theorem step_next_or_stop (s : State) : (∃ t, step s = .next t) ∨ Stop s (step s) := by
  cases hok : s.params.ok with
  | false => exact .inr (.parameters hok (by simp [step, stepWith, hok]))
  | true =>
    cases ht : nextTurn s with
    | host => exact step_host_next_or_stop hok ht
    | block => exact step_block_next_or_stop hok ht
    | reset =>
      exact .inl ⟨platformReset (popTurn s), by simp only [step, stepWith, hok, if_true, ht]⟩

theorem stop_of_step_eq {s : State} {r : Result} (h : step s = r) (hr : ∀ t, r ≠ .next t) :
    Stop s r := by
  subst h
  exact (step_next_or_stop s).resolve_left fun ⟨t, ht⟩ => hr t ht

/-- In a state that meets the invariants only the host's next access can stop a step: `ustep` holds
a micro-step (R79), and `U_VALIDATE` has faulted on the reserved mode before `U_DERIVE` (R131). -/
theorem Stop.of_invariants {s : State} {r : Result} (h : Stop s r) (hc : ControlInv s)
    (hdata : DataInv s) :
    nextTurn s = .host ∧ ∃ addr size, HostAccessIs s addr size ∧ admitted s addr size = false ∧
      r = notAdmitted addr size s := by
  cases h with
  | parameters bad outcome => simp [hc.paramsOk] at bad
  | access turn addr size next bad outcome => exact ⟨turn, addr, size, next, bad, outcome⟩
  | code running bad outcome => exact absurd hc.codeHeld (Nat.not_le_of_lt bad)
  | mode running derives bad outcome =>
    have hpast : PastValidate s := ⟨running, by simp [derives], by simp [derives]⟩
    exact absurd bad (hdata.validated hpast).mode

/-- Every stop but a host access outside the window is a refusal. -/
theorem Stop.of_fault {s : State} {f : Fault} (h : Stop s (.fault f)) :
    nextTurn s = .host ∧ ∃ addr size, HostAccessIs s addr size ∧ admitted s addr size = false ∧
      .fault f = notAdmitted addr size s := by
  cases h with
  | access turn addr size next bad outcome => exact ⟨turn, addr, size, next, bad, outcome⟩
  | parameters bad outcome | code _ _ outcome | mode _ _ _ outcome => cases outcome

/-! ### The obligations -/

/-- Settles O51: under the invariants the host's next access is the only stop, and in any state every
other stop is a refusal. -/
theorem onlyBadAccessesStop : Obligations.OnlyBadAccessesStop := by
  refine ⟨fun s r hc hdata h => ?_, fun s f h => ?_⟩
  · obtain ⟨ht, addr, size, hnext, hbad, hout⟩ :=
      (stop_of_step_eq h (by simp)).of_invariants hc hdata
    exact ⟨ht, addr, size, hnext, hbad, notAdmitted_eq_refused_iff.mp hout.symm⟩
  · obtain ⟨ht, addr, size, hnext, hbad, hout⟩ := (stop_of_step_eq h (by simp)).of_fault
    exact ⟨ht, addr, size, hnext, hbad, notAdmitted_eq_fault_iff.mp hout.symm⟩

/-- Settles O4: the write to `CMD` is admitted, and its word decodes to the command alone. -/
theorem stepRunsCommand : Obligations.StepRunsCommand := by
  intro s i w sched q hok hcode hsched hqueue
  have hstep := step_of_host hok (nextTurn_of_schedule hsched)
  rw [popTurn_of_schedule hsched] at hstep
  calc step s
    _ = hostTurn exec { s with env := { s.env with schedule := sched } } := hstep
    _ = hostAccess exec (.write s.params.blockBase 4 w)
          { s with env := { s.env with schedule := sched, hostQueue := q } } :=
        hostTurn_of_queue hqueue
    _ = hostCommand exec w { s with env := { s.env with schedule := sched, hostQueue := q } } :=
        hostAccess_write_cmd w
    _ = exec i { s with env := { s.env with schedule := sched, hostQueue := q } } :=
        hostCommand_of_ok (decodeCmd_of_encode hcode)

/-- Settles O6: the step takes back the turn and the access that the loading convention put. -/
theorem fetchWordRuns : Obligations.FetchWordRuns := by
  refine ⟨fun s i w hok hcode => ?_, fun s i u hok hcode => ?_⟩
  · rw [State.withFetchWord, tableCodeWord_cmd32]
    exact stepRunsCommand _ i w s.env.schedule s.env.hostQueue hok hcode rfl rfl
  · rw [State.withFetchWord, tableCodeWord_ustep6]
    exact (stepRunsMicroStep (fetchState s (some (.ustep6 u))) i s.env.schedule hok rfl).1 rfl hcode

/-- Settles O11: what a read returns does not depend on the list of values read. -/
theorem hostReadHasNoSideEffect : Obligations.HostReadHasNoSideEffect :=
  ⟨fun _ _ halign hmax => ⟨_, hostAccess_read halign hmax, rfl, rfl⟩, fun _ => rfl⟩

/-- Settles O16: an access that begins in the window touches it. -/
theorem inadmissibleAccessHasNoStep : Obligations.InadmissibleAccessHasNoStep := by
  intro s off size v hoff hsize hbad
  have hnot : admitted s (s.params.blockBase + off) size = false :=
    Bool.eq_false_iff.mpr fun h => hbad (admitted_iff.mp h)
  have hbus := notAdmitted_eq_refused_iff.mpr
    ⟨touchesWindow_of_inside (s := s) hoff hsize, rfl⟩
  exact ⟨(hostAccess_read_notAdmitted hnot).trans hbus,
    (hostAccess_write_notAdmitted hnot).trans hbus⟩

/-- Settles O17: the lanes are the digits of the word in base 256. -/
theorem lanesAreLittleEndian : Obligations.LanesAreLittleEndian := by
  refine fun v => ⟨BitVec.eq_of_toNat_eq ?_, fun i _ => lane_toNat v i⟩
  have hlt := v.isLt
  rw [ofLanes_toNat, lane_toNat, lane_toNat, lane_toNat, lane_toNat]
  omega

/-- Settles O33: the answer drawn is recorded, kept, and decides the successor. -/
theorem sampleDecidesDisable : Obligations.SampleDecidesDisable := by
  rintro s _ rfl
  rfl

end Sys2Proof.Proofs

/-! PROOFS. The statements of 30_encoding.md. First what the decoder refuses and which words are
illegal; then what a step leaves of the controller's invariant; then the obligations. -/

namespace Sys2Proof.Proofs

open Sys2Proof.Machine Sys2Proof.Safety

/-! ### The words that decode to no instruction (R77, R79) -/

/-- A command word that does not decode has a reserved bit, a reserved opcode or an operand where
none belongs. -/
theorem decodeCmd_error {w : Word} {e : DecodeError} (h : decodeCmd w = .error e) :
    cmdZ w ≠ 0 ∨ 5 ≤ (cmdOp w).toNat ∨ ((cmdOp w).toNat ≠ 4 ∧ cmdArg w ≠ 0) := by
  unfold decodeCmd at h
  split at h
  · exact .inl ‹_›
  right
  split at h
  case h_5 => cases h
  case h_6 =>
    simp only [imp_false] at *
    exact .inl (by omega)
  all_goals
    rename_i hop
    unfold withoutArg at h
    split at h
    · cases h
    · exact .inr ⟨by omega, ‹_›⟩

/-- A code that does not decode is refused as what it is. -/
theorem decodeUstep_error {u : BitVec 6} {e : DecodeError} (h : decodeUstep u = .error e) :
    e = .noSuchMicroStep u := by
  unfold decodeUstep at h
  split at h
  case h_22 => exact (Except.error.inj h).symm
  all_goals cases h

/-- Only the index of `GET_RATE` can be ill-formed (R76). -/
theorem wellFormed_eq_false_iff {np : Nat} {i : Instr} :
    i.wellFormed np = false ↔ ∃ d, i = .getRate d ∧ 2 + np < d.toNat := by
  cases i <;> simp [Instr.wellFormed]

/-- All that makes a command word illegal, on its fields (R77). -/
theorem illegalWord_iff_fields {np : Nat} {w : Word} :
    illegalWord np w = true ↔
      (cmdZ w ≠ 0 ∨ 5 ≤ (cmdOp w).toNat ∨ ((cmdOp w).toNat ≠ 4 ∧ cmdArg w ≠ 0) ∨
        ((cmdOp w).toNat = 4 ∧ 2 + np < (cmdArg w).toNat)) := by
  cases hd : decodeCmd w with
  | error e =>
    simp only [illegalWord, hd, true_iff]
    have := decodeCmd_error hd
    tauto
  | ok i =>
    simp only [illegalWord, hd, Bool.not_eq_true', wellFormed_eq_false_iff]
    obtain ⟨hz, ⟨rfl, hop, harg⟩ | ⟨rfl, hop, harg⟩ | ⟨rfl, hop, harg⟩ | ⟨rfl, hop, harg⟩ |
      ⟨rfl, hop⟩⟩ := decodeCmd_ok hd <;> simp [*]

theorem windowWrite_cmd {run : Instr → State → Result} {s : State} (v : Word) :
    windowWrite run 0x000 v s = hostCommand run v s := rfl

/-! ### `GET_RATE` (R124) -/

theorem exec_getRate_of_illegal {s : State} {d : BitVec 8} (hh : s.halted = false)
    (hb : s.busy = false) (hd : 2 + s.params.numPbus < d.toNat) :
    exec (.getRate d) s = .next { s with cerr := .illegal } := by
  have hbad : (Instr.getRate d).wellFormed s.params.numPbus = false :=
    wellFormed_eq_false_iff.mpr ⟨d, rfl, hd⟩
  simp only [exec, execGetRate, hbad, Bool.not_false, acceptCommand_illegal hh hb, reject]

theorem exec_getRate_of_domain {s : State} {d : BitVec 8} (hh : s.halted = false)
    (hb : s.busy = false) (hd : d.toNat ≤ 2 + s.params.numPbus) :
    exec (.getRate d) s = .next { s with cerr := .none, rateOut := rateOf s d.toNat } := by
  have hgood : (Instr.getRate d).wellFormed s.params.numPbus = true := decide_eq_true hd
  simp only [exec, execGetRate, hgood, Bool.not_true, acceptCommand_accepts hh hb]
  rfl

theorem hostCommand_of_illegal {s : State} {v : Word} (hh : s.halted = false)
    (hb : s.busy = false) (hv : illegalWord s.params.numPbus v = true) :
    hostCommand exec v s = .next { s with cerr := .illegal } := by
  cases hd : decodeCmd v with
  | error e => simp only [hostCommand, hd, refuseIllegal, acceptCommand_illegal hh hb, reject]
  | ok i =>
    simp only [illegalWord, hd, Bool.not_eq_true'] at hv
    obtain ⟨d, rfl, hrange⟩ := wellFormed_eq_false_iff.mp hv
    rw [hostCommand_of_ok hd]
    exact exec_getRate_of_illegal hh hb hrange

/-! ### The parts of the controller's invariant -/

/-- The parameters are a configuration, and each list has the length that they say (R8, R42, R45). -/
structure Sized (s : State) : Prop where
  paramsOk : s.params.ok = true
  pbusLength : s.pbusDiv.length = s.params.numPbus
  rateLength : s.rate.length = 3 + s.params.numPbus

/-- No fault is raised (R136 to R138). -/
structure NoFault (s : State) : Prop where
  running : s.halted = false
  fault : s.fault = .none
  level : s.fatalO = false

theorem noFault_of_running {s : State} (hc : ControlInv s) (hh : s.halted = false) : NoFault s :=
  ⟨hh, hc.faultHalted.mpr hh, hc.fatalLevel.trans hh⟩

theorem HostFrame.noFault {s t : State} (h : HostFrame s t) (hs : NoFault s) : NoFault t :=
  ⟨h.halted.trans hs.running, h.fault.trans hs.fault, h.fatalO.trans hs.level⟩

/-- A block at rest meets the invariant (R128). -/
theorem controlInv_of_rest {t : State} (hsized : Sized t) (hf : NoFault t) (hb : t.busy = false)
    (hu : t.ustep = Ucode.idle) : ControlInv t where
  paramsOk := hsized.paramsOk
  pbusLength := hsized.pbusLength
  rateLength := hsized.rateLength
  codeHeld := by simp [hu]
  busyRuns h := by simp [hb] at h
  restIdle _ _ := hu
  haltedAt h := by simp [hf.running] at h
  faultHalted := iff_of_true hf.fault hf.running
  fatalLevel := hf.level.trans hf.running.symm
  doneNotHalted _ := hf.running
  initOnce h := by simp [hb] at h
  feedReturn h := by simp [InFeed, hu] at h
  disableEnabled h := by simp [hu] at h
  disableNext h := by simp [InFeed, hu] at h
  usbUsed h := by simp [hu] at h
  busIndex h := by simp [hu] at h

/-- So does a block that `INIT` or `SYNTH` has just started (R89, R127). -/
theorem controlInv_of_started {t : State} (hsized : Sized t) (hf : NoFault t) (hb : t.busy = true)
    (hu : (t.ustep = Ucode.validate ∧ t.initDone = false) ∨ t.ustep = Ucode.querySynth) :
    ControlInv t := by
  have hplace : t.ustep = Ucode.validate ∨ t.ustep = Ucode.querySynth := hu.imp_left And.left
  exact {
    paramsOk := hsized.paramsOk
    pbusLength := hsized.pbusLength
    rateLength := hsized.rateLength
    codeHeld := by obtain h | h := hplace <;> simp [h]
    busyRuns := fun _ => ⟨hf.running, by obtain h | h := hplace <;> simp [h]⟩
    restIdle := fun h => by simp [hb] at h
    haltedAt := fun h => by simp [hf.running] at h
    faultHalted := iff_of_true hf.fault hf.running
    fatalLevel := hf.level.trans hf.running.symm
    doneNotHalted := fun _ => hf.running
    initOnce := fun _ hq => (hu.resolve_right hq).2
    feedReturn := fun h => by obtain hu | hu := hplace <;> simp [InFeed, hu] at h
    disableEnabled := fun h => by obtain hu | hu := hplace <;> simp [hu] at h
    disableNext := fun h => by obtain hu | hu := hplace <;> simp [InFeed, hu] at h
    usbUsed := fun h => by obtain hu | hu := hplace <;> simp [hu] at h
    busIndex := fun h => by obtain hu | hu := hplace <;> simp [hu] at h }

/-- And a block that has just halted at `U_VALIDATE` or `U_DERIVE` (R137). -/
theorem controlInv_of_raiseFatal {s : State} {code : FaultCode} (hc : ControlInv s)
    (hcode : code ≠ .none) (hb : s.busy = true)
    (hu : s.ustep = Ucode.validate ∨ s.ustep = Ucode.derive) : ControlInv (raiseFatal code s) where
  paramsOk := hc.paramsOk
  pbusLength := hc.pbusLength
  rateLength := hc.rateLength
  codeHeld := hc.codeHeld
  busyRuns h := by cases h
  restIdle _ h := by cases h
  haltedAt _ := hu
  faultHalted := iff_of_false hcode (by simp)
  fatalLevel := rfl
  doneNotHalted h := by
    have hq : s.ustep ≠ Ucode.querySynth := by obtain hu | hu := hu <;> simp [hu]
    simp [hc.initOnce hb hq] at h
  initOnce h := by cases h
  feedReturn := hc.feedReturn
  disableEnabled := hc.disableEnabled
  disableNext := hc.disableNext
  usbUsed := hc.usbUsed
  busIndex := hc.busIndex

/-! ### The host's turn keeps the invariant -/

theorem storeReg_pbusDiv_length (r : Reg) (v : Word) (s : State) :
    (storeReg r v s).pbusDiv.length = s.pbusDiv.length := by
  cases r with
  | pbusDiv n => exact List.length_set
  | _ => rfl

theorem pbusDiv_of_configView {s t : State} (h : configView t = configView s) :
    t.pbusDiv = s.pbusDiv :=
  (congrArg State.pbusDiv h :)

/-- No step but a reset changes the number of dividers (R42). -/
theorem step_pbusDiv_length {s t : State} (hn : NotReset s) (h : step s = .next t) :
    t.pbusDiv.length = s.pbusDiv.length := by
  obtain ⟨-, ⟨hr, -⟩ | ⟨-, e, rfl⟩ | ⟨-, -, i, e, -, hx⟩ | ⟨-, w, i, e, -, -, hx⟩ | ⟨-, e, rfl⟩ |
    ⟨-, r, v, _, e, -, -, -, rfl⟩ | ⟨-, r, v, _, e, -, -, -, rfl⟩⟩ := step_cases h
  · exact absurd hr hn
  · rfl
  · exact congrArg List.length (pbusDiv_of_configView (exec_ownersOnly hx).config)
  · exact congrArg List.length (pbusDiv_of_configView (exec_ownersOnly hx).config)
  · obtain ⟨c, hc, -⟩ | ⟨-, -, hi, -⟩ := acceptCommand_cases true false id { s with env := e }
    · rw [refuseIllegal, hc]
      rfl
    · cases hi
  · obtain ⟨c, hc, -⟩ | ⟨-, -, -, hw⟩ := writeCfg_cases r v { s with env := e }
    · rw [hc]
      rfl
    · rw [hw]
      exact storeReg_pbusDiv_length r v _
  · obtain ⟨c, hc, -⟩ | ⟨-, -, hw⟩ := writeQry_cases r v { s with env := e }
    · rw [hc]
      rfl
    · rw [hw]
      exact storeReg_pbusDiv_length r v _

theorem hostMove_controlInv {s t : State} (hc : ControlInv s) (h : HostMove s t)
    (hlen : t.pbusDiv.length = s.pbusDiv.length) : ControlInv t := by
  have hframe := h.hostFrame
  have hsized : Sized t :=
    ⟨hframe.params ▸ hc.paramsOk, hframe.params ▸ hlen.trans hc.pbusLength,
      hframe.params ▸ hframe.rate ▸ hc.rateLength⟩
  cases h with
  | kept same =>
    obtain ⟨c, e, rfl⟩ := same
    exact { hc with }
  | wrote running rest frame stays _ =>
    obtain ⟨hb, hu⟩ := stays
    exact controlInv_of_rest hsized (frame.noFault (noFault_of_running hc running)) hb
      (hu.trans (hc.restIdle rest running))
  | started running _ frame _ starts =>
    obtain ⟨hb, hu⟩ := starts
    exact controlInv_of_started hsized (frame.noFault (noFault_of_running hc running)) hb
      (hu.imp_left fun ⟨hval, hi⟩ => ⟨hval, frame.initDone.trans hi⟩)

/-! ### A micro-step and the fault -/

theorem fixedFault_ne_none (s : State) : fixedFault s ≠ some .none := by
  unfold fixedFault
  split
  · split <;> simp
  · simp

theorem validateFault_ne_none (s : State) : validateFault s ≠ some .none := by
  have hpair := fixedFault_ne_none s
  unfold validateFault
  split_ifs <;> simp [hpair]

theorem rateFault_ne_none (s : State) (c : PllChoice) : rateFault s c ≠ some .none := by
  simp only [rateFault]
  split_ifs <;> simp

/-- An instruction leaves the fault as it is, or it is `U_VALIDATE` or `U_DERIVE` and halts the block
with a code (R131, R134, R136). -/
theorem exec_fault_cases {i : Instr} {s t : State} (h : exec i s = .next t) :
    (∃ code, code ≠ .none ∧ t = raiseFatal code s ∧ (i = .uValidate ∨ i = .uDerive)) ∨
      (NoFault s → NoFault t) := by
  cases i with
  | nop | init | synth | checkFixed | getRate =>
    exact .inr (exec_command_effect rfl h).hostFrame.noFault
  | uValidate =>
    obtain rfl := Host.Outcome.next.inj h
    split
    · rename_i code hcode
      exact .inl ⟨code, fun hnone => validateFault_ne_none s (hnone ▸ hcode), rfl, .inl rfl⟩
    · exact .inr fun hs => { hs with }
  | uDerive =>
    obtain rfl := exec_uDerive_next h
    unfold deriveStep
    split
    · exact .inl ⟨.unsatisfiable, by decide, rfl, .inr rfl⟩
    · split
      · rename_i c _ _ code hcode
        exact .inl ⟨code, fun hnone => rateFault_ne_none s c (hnone ▸ hcode), rfl, .inr rfl⟩
      · exact .inr fun hs => { hs with }
  | uOscPoll =>
    obtain rfl := Host.Outcome.next.inj h
    right
    split
    · unfold oscStableNow
      split <;> exact fun hs => { hs with }
    · exact fun hs => { hs with }
  | uQuerySynth =>
    obtain rfl := Host.Outcome.next.inj h
    exact .inr fun hs => { (querySearch_hostFrame s).noFault hs with }
  | uCpuDiv | uPbusDiv | uLockPoll | uConnPoll | uFeed55 =>
    obtain rfl := Host.Outcome.next.inj h
    right
    split <;> exact fun hs => { hs with }
  | uIdle | uOscEn | uPstatSample | uDisconnect | uDisable | uSrcSel | uCfg | uEnable | uConnect
  | uFeedAa | uUsbDiv | uCache =>
    obtain rfl := Host.Outcome.next.inj h
    exact .inr fun hs => { hs with }

/-! ### Where a micro-step leaves the block -/

theorem length_domainRates (s : State) : (domainRates s).length = 3 + s.params.numPbus := by
  simp only [domainRates, List.length_append, List.length_map, List.length_range]
  rfl

theorem exec_sized {i : Instr} {s t : State} (hc : ControlInv s) (h : exec i s = .next t) :
    Sized t := by
  have hparams := (exec_sticky h).params
  refine ⟨hparams ▸ hc.paramsOk, ?_, ?_⟩
  · rw [pbusDiv_of_configView (exec_ownersOnly h).config, hparams]
    exact hc.pbusLength
  · obtain rfl | hr := (exec_ownersOnly h).rate
    · obtain rfl := Host.Outcome.next.inj h
      exact length_domainRates s
    · rw [hr, hparams]
      exact hc.rateLength

/-- The work of the block goes on at a micro-step that is not `U_IDLE`, with a code of R78. -/
theorem successors_held {i : Instr} {u : BitVec 6} (he : ¬ EndsWork i) (hu : u ∈ successors i) :
    u ≠ Ucode.idle ∧ u.toNat ≤ 0x14 := by
  have hreturns : ∀ u ∈ feedReturns, u ≠ Ucode.idle ∧ u.toNat ≤ 0x14 := by decide
  cases i with
  | uIdle | uCache | uQuerySynth => simp [EndsWork] at he
  | uFeed55 => exact hreturns u hu
  | getRate => cases hu
  | _ =>
    revert u
    decide

/-- A feed is written with a successor of its own, and it returns to `U_DISABLE` only when
`h.en0 = 1` (R98, R99, R102, R103, R105, R107). -/
theorem exec_inFeed {i : Instr} {s t : State} (hc : ControlInv s)
    (hd : decodeUstep s.ustep = .ok i) (h : exec i s = .next t) (hu : t.ustep ∈ successors i)
    (ht : InFeed t) : t.feedRet ∈ feedReturns ∧ (t.feedRet = Ucode.disable → t.en0 = true) := by
  have hfrom : i = .uDisconnect ∨ i = .uDisable ∨ i = .uCfg ∨ i = .uEnable ∨ i = .uConnect ∨
      i = .uFeedAa := by
    obtain ht | ht := ht <;> rw [ht] at hu <;> cases i <;> simp_all [successors, feedReturns]
  obtain rfl | rfl | rfl | rfl | rfl | rfl := hfrom
  case inl =>
    obtain rfl := Host.Outcome.next.inj h
    cases hen : s.en0 <;> simp [feedReturns, hen]
  case inr.inr.inr.inr.inr =>
    have hfeed : InFeed s := .inl (ustep_of_decode hd rfl)
    obtain rfl := Host.Outcome.next.inj h
    exact ⟨hc.feedReturn hfeed, hc.disableNext hfeed⟩
  all_goals
    obtain rfl := Host.Outcome.next.inj h
    simp [feedReturns]

/-- `U_DISABLE` comes after a sample of `en_stat = 1`, or after the feed that returns to it (R97,
R108). -/
theorem exec_atDisable {i : Instr} {s t : State} (hc : ControlInv s)
    (hd : decodeUstep s.ustep = .ok i) (h : exec i s = .next t) (hu : t.ustep ∈ successors i)
    (ht : t.ustep = Ucode.disable) : t.en0 = true := by
  have hfrom : i = .uPstatSample ∨ i = .uFeed55 := by
    rw [ht] at hu
    cases i <;> simp_all [successors]
  obtain rfl | rfl := hfrom
  · obtain rfl := Host.Outcome.next.inj h
    simp only [goto_ustep] at ht
    split_ifs at ht with hconn hen
    · cases ht
    · exact hen
    · cases ht
  · have hfeed : InFeed s := .inr (ustep_of_decode hd rfl)
    obtain rfl := Host.Outcome.next.inj h
    have hen := hc.disableNext hfeed ht
    split <;> exact hen

/-- The divider phase begins at bus 0, and at `U_USB_DIV` only when `USB_EN = 1` (R117). -/
theorem enterDividers_controls {s : State} (hp : s.params.Facts) :
    ((enterDividers s).ustep = Ucode.usbDiv → (enterDividers s).usbEn = true) ∧
      (enterDividers s).curN.toNat < (enterDividers s).params.numPbus := by
  refine ⟨fun hu => ?_, hp.numPbusMin⟩
  cases hs : s.usbEn with
  | true => exact hs
  | false => simp [hs] at hu

/-- `U_USB_DIV` is reached only when `USB_EN = 1`, and the bus index names a bus (R117 to R119). -/
theorem exec_atDivider {i : Instr} {s t : State} (hc : ControlInv s)
    (hd : decodeUstep s.ustep = .ok i) (h : exec i s = .next t) (hu : t.ustep ∈ successors i)
    (ht : t.ustep = Ucode.usbDiv ∨ t.ustep = Ucode.pbusDiv) :
    (t.ustep = Ucode.usbDiv → t.usbEn = true) ∧ t.curN.toNat < t.params.numPbus := by
  have hp := Params.ok_facts hc.paramsOk
  have hfrom : i = .uCpuDiv ∨ i = .uConnPoll ∨ i = .uUsbDiv ∨ i = .uPbusDiv := by
    obtain ht | ht := ht <;> rw [ht] at hu <;> cases i <;> simp_all [successors, feedReturns]
  obtain rfl | rfl | rfl | rfl := hfrom
  case inr.inr.inl =>
    have hindex := hc.busIndex (.inl (ustep_of_decode hd rfl))
    obtain rfl := Host.Outcome.next.inj h
    exact ⟨by simp, hindex⟩
  case inr.inr.inr =>
    obtain rfl := Host.Outcome.next.inj h
    split at ht
    · rename_i hlt
      have hnext : (s.curN + 1).toNat = s.curN.toNat + 1 := by
        have := hp.numPbusMax
        exact BitVec.toNat_add_of_lt (show s.curN.toNat + 1 < 2 ^ 4 by omega)
      rw [if_pos hlt]
      exact ⟨by simp, hnext.trans_lt hlt⟩
    · simp at ht
  all_goals
    obtain rfl := Host.Outcome.next.inj h
    split at ht
    · rw [if_pos ‹_›]
      exact enterDividers_controls hp
    · simp at ht

/-! ### A micro-step keeps the invariant -/

/-- What ends the block's work leaves it at rest. -/
theorem exec_endsWork_rest {i : Instr} {s t : State} (hc : ControlInv s) (he : EndsWork i)
    (hb : s.busy = true) (hd : decodeUstep s.ustep = .ok i) (h : exec i s = .next t) :
    t.busy = false := by
  obtain rfl | rfl | rfl := he
  · obtain ⟨-, hidle⟩ := hc.busyRuns hb
    exact absurd (ustep_of_decode hd rfl) hidle
  all_goals
    obtain rfl := Host.Outcome.next.inj h
    rfl

/-- What does not end it goes on under the invariant. -/
theorem exec_running_controlInv {i : Instr} {s t : State} (hc : ControlInv s) (he : ¬ EndsWork i)
    (hb : s.busy = true) (hf : NoFault t) (hbt : t.busy = true) (hu : t.ustep ∈ successors i)
    (hd : decodeUstep s.ustep = .ok i) (h : exec i s = .next t) : ControlInv t := by
  have hsized := exec_sized hc h
  obtain ⟨hidle, hheld⟩ := successors_held he hu
  have hdone : t.initDone = false := by
    have hq : s.ustep ≠ Ucode.querySynth := by
      intro hq
      rw [hq] at hd
      exact he (.inr (.inr (Except.ok.inj hd).symm))
    have hkept := (exec_ownersOnly h).initDone.resolve_left fun hi => he (.inr (.inl hi))
    exact hkept.trans (hc.initOnce hb hq)
  exact {
    paramsOk := hsized.paramsOk
    pbusLength := hsized.pbusLength
    rateLength := hsized.rateLength
    codeHeld := hheld
    busyRuns := fun _ => ⟨hf.running, hidle⟩
    restIdle := fun hrest => by simp [hbt] at hrest
    haltedAt := fun hh => by simp [hf.running] at hh
    faultHalted := iff_of_true hf.fault hf.running
    fatalLevel := hf.level.trans hf.running.symm
    doneNotHalted := fun _ => hf.running
    initOnce := fun _ _ => hdone
    feedReturn := fun ht => (exec_inFeed hc hd h hu ht).1
    disableEnabled := exec_atDisable hc hd h hu
    disableNext := fun ht => (exec_inFeed hc hd h hu ht).2
    usbUsed := fun ht => (exec_atDivider hc hd h hu (.inl ht)).1 ht
    busIndex := fun ht => (exec_atDivider hc hd h hu ht).2 }

theorem exec_controlInv {i : Instr} {s t : State} (hc : ControlInv s) (hb : s.busy = true)
    (hd : decodeUstep s.ustep = .ok i) (h : exec i s = .next t) : ControlInv t := by
  obtain ⟨hrun, -⟩ := hc.busyRuns hb
  obtain ⟨code, hcode, rfl, hi⟩ | hkeeps := exec_fault_cases h
  · refine controlInv_of_raiseFatal hc hcode hb ?_
    obtain rfl | rfl := hi
    · exact .inl (ustep_of_decode hd rfl)
    · exact .inr (ustep_of_decode hd rfl)
  · have hf : NoFault t := hkeeps (noFault_of_running hc hrun)
    by_cases he : EndsWork i
    · exact controlInv_of_rest (exec_sized hc h) hf (exec_endsWork_rest hc he hb hd h)
        (exec_endsWork_ustep he hd h)
    · obtain ⟨code, rfl, -⟩ | hends | ⟨hbusy, hu⟩ :=
        exec_microstep_cases (decodeUstep_format hd) (feedReturn_of_feed55 hc hd) h
      · cases hf.running
      · exact absurd hends he
      · exact exec_running_controlInv hc he hb hf (hbusy.trans hb) hu hd h

/-! ### The obligations -/

/-- Settles O1: in both formats, what decodes is encoded by its own word, and the word of an
instruction decodes to it. -/
theorem decodeEncodeInverse : Obligations.DecodeEncodeInverse := by
  intro c i
  cases c with
  | cmd32 w => exact ⟨decodeCmd_code, decodeCmd_of_encode⟩
  | ustep6 u => exact ⟨decodeUstep_code, decodeUstep_of_encode⟩

/-- Settles O49: a reset, a host's turn and a micro-step each keep the controller's invariant. -/
theorem controlInvKept : Obligations.ControlInvKept := by
  intro s t hc h
  cases ht : nextTurn s with
  | reset =>
    obtain ⟨e, rfl⟩ := step_reset ht h
    exact controlInv_reset hc.paramsOk e
  | host =>
    exact hostMove_controlInv hc (step_host_move ht h) (step_pbusDiv_length (by simp [ht]) h)
  | block =>
    obtain ⟨e, rfl⟩ | ⟨hb, i, e, hd, hx⟩ := step_block_cases ht h
    · exact controlInv_of_env hc e
    · exact exec_controlInv (controlInv_of_env hc e) hb hd hx

/-- Settles O2: the fields of a word are its digits in base 256, and an illegal word is refused
whether it decodes or not. -/
theorem illegalWordRefused : Obligations.IllegalWordRefused := by
  refine ⟨fun np v => ?_, fun s v hh hb hv =>
    (windowWrite_cmd v).trans (hostCommand_of_illegal hh hb hv)⟩
  rw [illegalWord_iff_fields, BitVec.toNat_ne, BitVec.toNat_ne, cmdZ_toNat, cmdOp_toNat,
    cmdArg_toNat]
  rfl

/-- Settles O3: the written-out words are evaluated, and a reserved code is refused as one. -/
theorem writtenWordsDecode : Obligations.WrittenWordsDecode := by
  refine ⟨rfl, rfl, rfl, rfl, rfl, rfl, rfl, rfl, rfl, rfl, rfl, rfl, rfl, fun u hu => ?_⟩
  obtain ⟨e, he⟩ := decodeUstep_reserved u hu
  exact decodeUstep_error he ▸ he

/-- Settles O20: the index is checked at acceptance, and the copy is of the cache's entry. -/
theorem getRateCopies : Obligations.GetRateCopies := by
  refine fun s d hh hb => ⟨fun x hd hx => ?_, exec_getRate_of_illegal hh hb⟩
  have hrate : rateOf s d.toNat = x := by
    rw [rateOf, List.getD_eq_getElem?_getD, hx, Option.getD_some]
  rw [exec_getRate_of_domain hh hb hd, hrate]

end Sys2Proof.Proofs

/-! PROOFS. The statements of 40_synthesizer.md. First the commands of the synthesizer; then which
triple the loops of `SEARCH` find first and when they find none; then the obligations. -/

namespace Sys2Proof.Proofs

open Sys2Proof.Machine Sys2Proof.Safety

/-! ### The commands (R88, R91) -/

theorem checkFixedPair_of_legal {p : Params} {fin m n : Nat} (h : PairLegal p fin m n) :
    checkFixedPair p fin m n = .ok := by
  obtain ⟨-, hrange⟩ | ⟨hok, -⟩ | ⟨-, -, hfcco⟩ := checkFixedPair_cases p fin m n
  · exact absurd h.1 hrange
  · exact hok
  · exact absurd h.2 hfcco

theorem queryFixed_of_legal {s : State}
    (h : PairLegal s.params s.synFin.toNat s.synMN.m.toNat s.synMN.n.toNat) :
    queryFixed s = { s with
      synResult := ⟨s.synMN.m, s.synMN.n, 0⟩
      synFcco := BitVec.ofNat 32 (2 * s.synFin.toNat * s.synMN.m.toNat / s.synMN.n.toNat)
      synOk := true } := by
  simp [queryFixed, checkFixedPair_of_legal h, querySuccess, choiceTriple]

theorem queryFixed_of_not_legal {s : State}
    (h : ¬ PairLegal s.params s.synFin.toNat s.synMN.m.toNat s.synMN.n.toNat) :
    queryFixed s = queryFailure s := by
  obtain ⟨hcheck, -⟩ | ⟨-, hlegal⟩ | ⟨hcheck, -⟩ :=
    checkFixedPair_cases s.params s.synFin.toNat s.synMN.m.toNat s.synMN.n.toNat
  · simp [queryFixed, hcheck]
  · exact absurd hlegal h
  · simp [queryFixed, hcheck]

/-- The floor of a legal pair's `Fcco` fits its register. -/
theorem fcco_le_of_pairLegal {p : Params} {fin m n : Nat} (h : PairLegal p fin m n) (hp : p.Facts) :
    2 * fin * m / n ≤ p.fccoMax := by
  obtain ⟨⟨-, -, hn, -⟩, -, hmax⟩ := h
  have hpos : 0 < n := Nat.lt_of_lt_of_le hp.nMin hn
  exact Nat.div_le_of_le_mul (Nat.mul_comm n p.fccoMax ▸ hmax)

/-! ### The innermost loop (R83, R85) -/

theorem searchDivider_eq_none_iff {num fout n : Nat} :
    searchDivider num fout n = none ↔ ∀ d, 2 ≤ d ∧ d ≤ 255 → num ≠ fout * d * n := by
  simp [searchDivider, List.find?_eq_none, mem_ascending]

/-- The loop over `D` finds the smallest divider that matches. -/
theorem searchDivider_least {num fout n d : Nat} (h : searchDivider num fout n = some d) {d' : Nat}
    (hd' : 2 ≤ d') (hexact : num = fout * d' * n) : d ≤ d' := by
  obtain ⟨-, -, hbefore⟩ := List.find?_range'_eq_some.mp h
  by_contra hlt
  simpa [hexact] using hbefore d' hd' (Nat.lt_of_not_le hlt)

/-- A divider matches a number above 0 exactly when it is the quotient and nothing is left over. -/
theorem exact_iff_division {num fout n d : Nat} (hnum : 0 < num) :
    num = fout * d * n ↔ 0 < fout ∧ num % (fout * n) = 0 ∧ num / (fout * n) = d := by
  have hswap : fout * d * n = fout * n * d := Nat.mul_right_comm fout d n
  constructor
  · rintro rfl
    have hpos : 0 < fout * n := Nat.pos_of_mul_pos_right (hswap ▸ hnum)
    rw [hswap]
    exact ⟨Nat.pos_of_mul_pos_right hpos, Nat.mul_mod_right _ _, Nat.mul_div_cancel_left d hpos⟩
  · rintro ⟨-, hmod, rfl⟩
    rw [hswap, Nat.mul_div_cancel' (Nat.dvd_of_mod_eq_zero hmod)]

/-- The loop over `D` is one division (R85 item 3). -/
theorem searchDivider_eq_division {num fout n : Nat} (hnum : 0 < num) :
    searchDivider num fout n =
      if 0 < fout ∧ num % (fout * n) = 0 ∧ 2 ≤ num / (fout * n) ∧ num / (fout * n) ≤ 255 then
        some (num / (fout * n))
      else none := by
  cases h : searchDivider num fout n with
  | some d =>
    obtain ⟨⟨hlo, hhi⟩, hexact⟩ := searchDivider_eq_some h
    obtain ⟨hfout, hmod, rfl⟩ := (exact_iff_division hnum).mp hexact
    rw [if_pos ⟨hfout, hmod, hlo, hhi⟩]
  | none =>
    refine (if_neg fun ⟨hfout, hmod, hlo, hhi⟩ => ?_).symm
    exact searchDivider_eq_none_iff.mp h _ ⟨hlo, hhi⟩
      ((exact_iff_division hnum).mpr ⟨hfout, hmod, rfl⟩)

/-- For one `(N, M)` the body of `SEARCH` is the one with the division: a `num` in range is above
0. -/
theorem searchPair_eq_pairByDivision {p : Params} {n : Nat} (hp : p.Facts) (hn : 0 < n)
    (fin fout m : Nat) : searchPair p fin fout n m = pairByDivision p fin fout n m := by
  unfold searchPair pairByDivision
  by_cases hrange : p.fccoMin * n ≤ 2 * fin * m ∧ 2 * fin * m ≤ p.fccoMax * n
  · have hnum : 0 < 2 * fin * m := Nat.lt_of_lt_of_le (Nat.mul_pos hp.fccoMin hn) hrange.1
    rw [if_pos (fccoInRange_iff.mpr hrange), searchDivider_eq_division hnum]
    simp [hrange.1, hrange.2, apply_ite]
  · rw [if_neg (fun h => hrange (fccoInRange_iff.mp h)),
      if_neg (fun ⟨hmin, hmax, _⟩ => hrange ⟨hmin, hmax⟩)]

/-! ### The loops over `N` and `M` (R83, R85) -/

/-- In an ordered list, the element a search succeeds with comes before every other success. -/
theorem findSome?_first {α β : Type} {R : α → α → Prop} {l : List α} (hl : l.Pairwise R)
    {f : α → Option β} {b : β} (h : l.findSome? f = some b) :
    ∃ a, f a = some b ∧ ∀ x ∈ l, f x ≠ none → x = a ∨ R a x := by
  obtain ⟨before, a, after, rfl, ha, hbefore⟩ := List.findSome?_eq_some_iff.mp h
  have hafter : ∀ x ∈ after, R a x := (List.pairwise_cons.mp (List.pairwise_append.mp hl).2.1).1
  refine ⟨a, ha, fun x hx hsome => ?_⟩
  obtain hx | hx := List.mem_append.mp hx
  · exact absurd (hbefore x hx) hsome
  · exact (List.mem_cons.mp hx).imp_right (hafter x)

/-- A search reads its body at the list's elements only. -/
theorem findSome?_congr_of_mem {α β : Type} {l : List α} {f g : α → Option β}
    (h : ∀ x ∈ l, f x = g x) : l.findSome? f = l.findSome? g := by
  induction l with
  | nil => rfl
  | cons x xs ih =>
    rw [List.findSome?_cons, List.findSome?_cons, h x List.mem_cons_self,
      ih fun y hy => h y (List.mem_cons_of_mem x hy)]

theorem searchPair_fields {p : Params} {fin fout n m : Nat} {c : PllChoice}
    (h : searchPair p fin fout n m = some c) :
    c.n = n ∧ c.m = m ∧ searchDivider (2 * fin * m) fout n = some c.d := by
  unfold searchPair at h
  split at h
  · obtain ⟨d, hd, rfl⟩ := Option.map_eq_some_iff.mp h
    exact ⟨rfl, rfl, hd⟩
  · cases h

/-- The body of `SEARCH` succeeds for the `(N, M)` of every match. -/
theorem searchPair_ne_none_of_match {p : Params} {fin fout : Nat} {c : PllChoice}
    (hc : Match p fin fout c) : searchPair p fin fout c.n c.m ≠ none := by
  rw [searchPair, if_pos (fccoInRange_iff.mpr hc.fccoRange)]
  intro hnone
  exact searchDivider_eq_none_iff.mp (Option.map_eq_none_iff.mp hnone) c.d hc.dRange hc.exact

/-- The loop over `M` succeeds for the `N` of every match. -/
theorem searchRow_ne_none_of_match {p : Params} {fin fout : Nat} {c : PllChoice}
    (hc : Match p fin fout c) :
    (descending p.mMin p.mMax).findSome? (fun m => searchPair p fin fout c.n m) ≠ none :=
  fun hnone => searchPair_ne_none_of_match hc
    (List.findSome?_eq_none_iff.mp hnone c.m (mem_descending.mpr hc.mRange))

theorem search_ne_none_of_match {p : Params} {fin fout : Nat} {c : PllChoice}
    (hc : Match p fin fout c) : search p fin fout ≠ none :=
  fun hnone => searchRow_ne_none_of_match hc
    (List.findSome?_eq_none_iff.mp hnone c.n (mem_ascending.mpr hc.nRange))

/-- `Unsat` is the answer exactly when nothing meets the contract. -/
theorem search_eq_none_iff {p : Params} {fin fout : Nat} :
    search p fin fout = none ↔ ∀ c, ¬ Match p fin fout c :=
  ⟨fun hnone _ hc => search_ne_none_of_match hc hnone,
    fun h => Option.eq_none_iff_forall_ne_some.mpr fun c hc => h c (search_match hc)⟩

/-- What `SEARCH` answers comes no later than any match (R85 item 2). -/
theorem search_noLater {p : Params} {fin fout : Nat} {c c' : PllChoice}
    (h : search p fin fout = some c) (hc' : Match p fin fout c') : NoLater c c' := by
  obtain ⟨n, hrow, hfirstN⟩ := findSome?_first (ascending_sorted p.nMin p.nMax) h
  obtain ⟨m, hpair, hfirstM⟩ := findSome?_first (descending_sorted p.mMin p.mMax) hrow
  obtain ⟨rfl, rfl, hd⟩ := searchPair_fields hpair
  obtain hn | hn := hfirstN c'.n (mem_ascending.mpr hc'.nRange) (searchRow_ne_none_of_match hc')
  · rw [← hn] at hfirstM hd
    obtain hm | hm :=
      hfirstM c'.m (mem_descending.mpr hc'.mRange) (searchPair_ne_none_of_match hc')
    · rw [← hm] at hd
      exact .inr ⟨hn.symm, .inr ⟨hm.symm, searchDivider_least hd hc'.dRange.1 hc'.exact⟩⟩
    · exact .inr ⟨hn.symm, .inl hm⟩
  · exact .inl hn

theorem noLater_antisymm {a b : PllChoice} (hab : NoLater a b) (hba : NoLater b a) : a = b := by
  have hfields : a.m = b.m ∧ a.n = b.n ∧ a.d = b.d := by
    unfold NoLater at hab hba
    omega
  cases a
  cases b
  simpa using hfields

/-! ### The bounds of a match (R85, R86) -/

/-- The exact `Fcco` of a match is at least `FCCO_MIN` (R85 item 1). -/
theorem fccoMin_le_of_match {p : Params} {fin fout : Nat} {c : PllChoice} (hc : Match p fin fout c)
    (hp : p.Facts) : p.fccoMin ≤ fout * c.d := by
  have hn : 0 < c.n := Nat.lt_of_lt_of_le hp.nMin hc.nRange.1
  have hmin : p.fccoMin * c.n ≤ fout * c.d * c.n := hc.exact ▸ hc.fccoRange.1
  exact Nat.le_of_mul_le_mul_right hmin hn

theorem fout_pos_of_match {p : Params} {fin fout : Nat} {c : PllChoice} (hc : Match p fin fout c)
    (hp : p.Facts) : 0 < fout :=
  Nat.pos_of_mul_pos_right (Nat.lt_of_lt_of_le hp.fccoMin (fccoMin_le_of_match hc hp))

theorem fin_pos_of_match {p : Params} {fin fout : Nat} {c : PllChoice} (hc : Match p fin fout c)
    (hp : p.Facts) : 0 < fin := by
  have hn : 0 < c.n := Nat.lt_of_lt_of_le hp.nMin hc.nRange.1
  have hnum : 0 < 2 * fin * c.m := Nat.lt_of_lt_of_le (Nat.mul_pos hp.fccoMin hn) hc.fccoRange.1
  exact Nat.pos_of_mul_pos_left (Nat.pos_of_mul_pos_right hnum)

/-- The smallest divider is 2, so a target is at most half of `FCCO_MAX` (R85 item 5). -/
theorem two_mul_fout_le_of_match {p : Params} {fin fout : Nat} {c : PllChoice}
    (hc : Match p fin fout c) (hp : p.Facts) : 2 * fout ≤ p.fccoMax :=
  calc 2 * fout = fout * 2 := Nat.mul_comm _ _
    _ ≤ fout * c.d := Nat.mul_le_mul_left fout hc.dRange.1
    _ ≤ p.fccoMax := (fcco_of_match hc hp).2

/-- The largest divider is 255, so a target times 255 is at least `FCCO_MIN` (R85 item 6). -/
theorem fccoMin_le_fout_mul_of_match {p : Params} {fin fout : Nat} {c : PllChoice}
    (hc : Match p fin fout c) (hp : p.Facts) : p.fccoMin ≤ fout * 255 :=
  (fccoMin_le_of_match hc hp).trans (Nat.mul_le_mul_left fout hc.dRange.2)

theorem search_eq_none_of_half_lt {p : Params} (hp : p.Facts) (fin : Nat) {fout : Nat}
    (h : p.fccoMax / 2 < fout) : search p fin fout = none := by
  refine search_eq_none_iff.mpr fun c hc => ?_
  have := two_mul_fout_le_of_match hc hp
  omega

/-- A target of half of `FCCO_MAX` leaves only the divider 2 and an `Fcco` of `FCCO_MAX` (R86). -/
theorem search_half_isSome_iff {p : Params} (hp : p.Facts) {fin fout : Nat}
    (hhalf : 2 * fout = p.fccoMax) :
    (search p fin fout).isSome = true ↔
      ∃ n m, p.nMin ≤ n ∧ n ≤ p.nMax ∧ p.mMin ≤ m ∧ m ≤ p.mMax ∧
        2 * fin * m = p.fccoMax * n := by
  constructor
  · intro h
    obtain ⟨c, hs⟩ := Option.isSome_iff_exists.mp h
    have hc := search_match hs
    have hmax : c.d * fout ≤ 2 * fout := by
      rw [hhalf, Nat.mul_comm]
      exact (fcco_of_match hc hp).2
    have hd : c.d = 2 :=
      Nat.le_antisymm (Nat.le_of_mul_le_mul_right hmax (fout_pos_of_match hc hp)) hc.dRange.1
    refine ⟨c.n, c.m, hc.nRange.1, hc.nRange.2, hc.mRange.1, hc.mRange.2, ?_⟩
    rw [hc.exact, hd, Nat.mul_comm fout 2, hhalf]
  · rintro ⟨n, m, hn, hn', hm, hm', hexact⟩
    have hmatch : Match p fin fout ⟨m, n, 2⟩ :=
      { nRange := ⟨hn, hn'⟩
        mRange := ⟨hm, hm'⟩
        dRange := by simp
        fccoRange := ⟨hexact ▸ Nat.mul_le_mul_right n hp.fccoLe, hexact.le⟩
        exact := by rw [hexact, Nat.mul_comm fout 2, hhalf] }
    exact Option.isSome_iff_ne_none.mpr (search_ne_none_of_match hmatch)

/-- A configuration whose ranges hold only `N = 1` and `M` of 1 and 2. From an input of 3 its
`FCCO_MAX` of 10 would need `M / N = 5 / 3`. -/
def narrowProfile : Params :=
  { Config.testProfile with
    mMin := 1, mMax := 2, nMin := 1, nMax := 1, fccoMin := 4, fccoMax := 10 }

theorem narrowProfile_ok : narrowProfile.ok = true := by decide

theorem search_narrowProfile_half : search narrowProfile 3 (narrowProfile.fccoMax / 2) = none := by
  have hhalf : 2 * (narrowProfile.fccoMax / 2) = narrowProfile.fccoMax := rfl
  rw [← Option.not_isSome_iff_eq_none,
    search_half_isSome_iff (Params.ok_facts narrowProfile_ok) hhalf]
  rintro ⟨n, m, hn, hn', -, -, hexact⟩
  simp only [narrowProfile] at hn hn' hexact
  omega

/-! ### The obligations -/

/-- Settles O22: the answer is a match that no match comes before, and such a match is the only
one. -/
theorem searchReturnsFirstMatch : Obligations.SearchReturnsFirstMatch := by
  refine fun p fin fout => ⟨fun c => ⟨fun h => ⟨search_match h, fun _ => search_noLater h⟩, ?_⟩,
    search_eq_none_iff⟩
  rintro ⟨hc, hfirst⟩
  obtain ⟨a, ha⟩ := Option.ne_none_iff_exists'.mp (search_ne_none_of_match hc)
  rw [ha, noLater_antisymm (search_noLater ha hc) (hfirst a (search_match ha))]

/-- Settles O23: the loops meet no `N` of 0, and for every other the two bodies agree. -/
theorem searchByDivisionAgrees : Obligations.SearchByDivisionAgrees := by
  intro p fin fout hok
  have hp := Params.ok_facts hok
  refine findSome?_congr_of_mem fun n hn => findSome?_congr_of_mem fun m _ => ?_
  have hpos : 0 < n := Nat.lt_of_lt_of_le hp.nMin (mem_ascending.mp hn).1
  exact searchPair_eq_pairByDivision hp hpos fin fout m

/-- Settles O24: each input contradicts a bound that every match meets. -/
theorem searchUnsatInputs : Obligations.SearchUnsatInputs := by
  intro p fin fout hok
  have hp := Params.ok_facts hok
  refine ⟨search_eq_none_iff.mpr fun c hc => ?_, search_eq_none_iff.mpr fun c hc => ?_,
    search_eq_none_of_half_lt hp fin, fun hlow => search_eq_none_iff.mpr fun c hc => ?_⟩
  · exact absurd (fout_pos_of_match hc hp) (Nat.lt_irrefl 0)
  · exact absurd (fin_pos_of_match hc hp) (Nat.lt_irrefl 0)
  · exact absurd hlow (Nat.not_lt.mpr (fccoMin_le_fout_mul_of_match hc hp))

/-- Settles O25: half of `FCCO_MAX` is a target exactly when it is even, and then it is met by the
pairs whose `Fcco` is `FCCO_MAX`; `narrowProfile` has none for the input 3. -/
theorem boundaryFrequency : Obligations.BoundaryFrequency := by
  refine ⟨fun p fin hok => ?_, narrowProfile, 3, narrowProfile_ok, by decide,
    search_narrowProfile_half⟩
  have hp := Params.ok_facts hok
  refine ⟨⟨?_, ?_⟩, search_eq_none_of_half_lt hp fin (Nat.lt_succ_self _)⟩
  · rintro ⟨fout, hhalf, hsome⟩
    exact ⟨by omega, (search_half_isSome_iff hp hhalf).mp hsome⟩
  · rintro ⟨heven, hpair⟩
    have hhalf : 2 * (p.fccoMax / 2) = p.fccoMax := by omega
    exact ⟨_, hhalf, (search_half_isSome_iff hp hhalf).mpr hpair⟩

/-- Settles O21: acceptance clears `CERR`, and the check of the pair selects the writes. -/
theorem checkFixedResult : Obligations.CheckFixedResult := by
  intro s hok hh hb
  have hexec : exec .checkFixed s = .next (queryFixed { s with cerr := .none }) :=
    congrArg _ (acceptCommand_accepts hh hb)
  refine ⟨fun hlegal => ⟨_, toNat_ofNat_of_lt ?_, ?_⟩, fun hnot => ?_⟩
  · have hfacts := Params.ok_facts hok
    have hle := fcco_le_of_pairLegal hlegal hfacts
    have hword : s.params.fccoMax ≤ 4294967295 := hfacts.fccoMax
    omega
  · exact hexec.trans (congrArg _ (queryFixed_of_legal hlegal))
  · exact hexec.trans (congrArg _ (queryFixed_of_not_legal hnot))

/-- Settles O19: on a free block acceptance runs the command's own writes. -/
theorem startingCommandsAccepted : Obligations.StartingCommandsAccepted := by
  intro s hh hb
  refine ⟨congrArg _ (acceptCommand_accepts hh hb), fun hinit => ?_,
    congrArg _ (acceptCommand_accepts hh hb)⟩
  simp only [exec, execInit, hinit, acceptCommand_accepts hh hb]
  rfl

end Sys2Proof.Proofs

/-! PROOFS. The statements of 41_sequencer.md. First the feed rule of a trace and what keeps it;
then who writes `SEQ_STATE`, and the polls; then the block's runs, the waits and the phases of
`INIT`; then the obligations. -/

namespace Sys2Proof.Proofs

open Sys2Proof.Machine Sys2Proof.Safety

/-! ### The feed rule of a trace (R93) -/

theorem getElem?_append_of_left {α : Type} {a : List α} {i : Nat} {x : α} (h : a[i]? = some x)
    (b : List α) : (a ++ b)[i]? = some x := by
  obtain ⟨hlt, -⟩ := List.getElem?_eq_some_iff.mp h
  rw [List.getElem?_append_left hlt, h]

theorem getElem?_append_add {α : Type} (a b : List α) (i : Nat) :
    (a ++ b)[a.length + i]? = b[i]? := by
  rw [List.getElem?_append_right (Nat.le_add_right ..), Nat.add_sub_cancel_left]

/-- A place of two traces joined is a place of the one or of the other. -/
theorem getElem?_append_cases {α : Type} {a b : List α} {i : Nat} {x : α}
    (h : (a ++ b)[i]? = some x) : a[i]? = some x ∨ ∃ j, i = a.length + j ∧ b[j]? = some x := by
  by_cases hlt : i < a.length
  · exact .inl (List.getElem?_append_left hlt ▸ h)
  · obtain ⟨j, rfl⟩ := Nat.exists_eq_add_of_le (Nat.le_of_not_lt hlt)
    exact .inr ⟨j, rfl, getElem?_append_add a b j ▸ h⟩

/-- Two traces that each obey the feed rule obey it one after the other. -/
theorem feedRule_append {a b : List PortEvent} (ha : FeedRule a) (hb : FeedRule b) :
    FeedRule (a ++ b) where
  fed i e h hc := by
    obtain h | ⟨j, rfl, hb'⟩ := getElem?_append_cases h
    · obtain ⟨h1, h2⟩ := ha.fed i e h hc
      exact ⟨getElem?_append_of_left h1 b, getElem?_append_of_left h2 b⟩
    · rw [Nat.add_assoc, Nat.add_assoc, getElem?_append_add, getElem?_append_add]
      exact hb.fed j e hb' hc
  feeds i x h := by
    obtain h | ⟨k, rfl, hb'⟩ := getElem?_append_cases h
    · refine (ha.feeds i x h).imp ?_ ?_ <;>
      · rintro ⟨j, e, hi, hx, he, hc⟩
        exact ⟨j, e, hi, hx, getElem?_append_of_left he b, hc⟩
    · refine (hb.feeds k x hb').imp ?_ ?_ <;>
      · rintro ⟨j, e, rfl, hx, he, hc⟩
        exact ⟨a.length + j, e, rfl, hx, (getElem?_append_add a b j).trans he, hc⟩

/-- A change together with its two feeds obeys the rule. -/
theorem feedRule_change {e : PortEvent} (he : IsChange e) : FeedRule (e :: feedPair) where
  fed i x h hc := by
    match i, h with
    | 0, _ => exact ⟨rfl, rfl⟩
    | 1, h | 2, h =>
      obtain rfl := Option.some.inj h
      simp [IsChange] at hc
  feeds i x h := by
    match i, h with
    | 0, h =>
      obtain rfl := Option.some.inj h
      simp [IsChange] at he
    | 1, h =>
      obtain rfl := PortEvent.feed.inj (Option.some.inj h)
      exact .inl ⟨0, e, rfl, rfl, rfl, he⟩
    | 2, h =>
      obtain rfl := PortEvent.feed.inj (Option.some.inj h)
      exact .inr ⟨0, e, rfl, rfl, rfl, he⟩

/-- An operation that is neither a change nor a feed. -/
def NeedsNoFeed (e : PortEvent) : Prop := ¬ IsChange e ∧ ∀ b, e ≠ .feed b

/-- A trace of such operations obeys the rule: it has no place that the rule speaks of. -/
theorem feedRule_of_needsNoFeed {t : List PortEvent} (h : ∀ e ∈ t, NeedsNoFeed e) : FeedRule t where
  fed _ e he hc := absurd hc (h e (List.mem_of_getElem? he)).1
  feeds _ b he := absurd rfl ((h _ (List.mem_of_getElem? he)).2 b)

/-! ### The feed invariant -/

theorem pendingFeed_of_not_inFeed {s : State} (h : ¬ InFeed s) : pendingFeed s.ustep = [] := by
  obtain ⟨haa, h55⟩ := not_or.mp h
  rw [pendingFeed, if_neg haa, if_neg h55]

theorem feedRule_of_feedInv {s : State} (h : FeedInv s) (hf : ¬ InFeed s) : FeedRule s.trace := by
  rw [FeedInv, pendingFeed_of_not_inFeed hf, List.append_nil] at h
  exact h

/-- The feed invariant reads the trace and `ustep` only. -/
theorem feedInv_congr {s t : State} (h : FeedInv s) (ht : t.trace = s.trace)
    (hu : t.ustep = s.ustep) : FeedInv t := by
  rwa [FeedInv, ht, hu]

/-- The host issues no port operation, and it moves `ustep` only from `U_IDLE`, to a micro-step that
is no feed. -/
theorem hostMove_feedInv {s t : State} (hc : ControlInv s) (hinv : FeedInv s) (h : HostMove s t) :
    FeedInv t := by
  have htrace := h.hostFrame.trace
  cases h with
  | kept same => exact feedInv_congr hinv htrace same.ustep
  | wrote _ _ _ stays _ => exact feedInv_congr hinv htrace stays.2
  | started running rest _ _ starts =>
    have hidle : ¬ InFeed s := by simp [InFeed, hc.restIdle rest running]
    have hstart : ¬ InFeed t := by
      obtain ⟨-, ⟨hu, -⟩ | hu⟩ := starts <;> simp [InFeed, hu]
    rw [FeedInv, pendingFeed_of_not_inFeed hstart, List.append_nil, htrace]
    exact feedRule_of_feedInv hinv hidle

/-- A change leaves its two feeds to be written. -/
theorem feedInv_of_change {s t : State} {e : PortEvent} (hinv : FeedInv s) (hf : ¬ InFeed s)
    (he : IsChange e) (ht : t.trace = s.trace ++ [e]) (hu : t.ustep = Ucode.feedAa) :
    FeedInv t := by
  have hrule := feedRule_append (feedRule_of_feedInv hinv hf) (feedRule_change he)
  rw [FeedInv, ht, hu, List.append_assoc]
  exact hrule

/-- The instructions that write a change or a feed (R93). -/
def feedWriters : List Instr :=
  [.uDisconnect, .uDisable, .uCfg, .uEnable, .uConnect, .uFeedAa, .uFeed55]

theorem portOp_needsNoFeed {s : State} {i : Instr} (hi : i ∉ feedWriters) {e : PortEvent}
    (he : portOp s i = some e) : NeedsNoFeed e := by
  cases i with
  | uDisconnect | uDisable | uCfg | uEnable | uConnect | uFeedAa | uFeed55 =>
    simp [feedWriters] at hi
  | nop | init | synth | checkFixed | getRate | uIdle | uValidate | uDerive | uCache
  | uQuerySynth => cases he
  | _ =>
    obtain rfl := Option.some.inj he
    simp [NeedsNoFeed, IsChange]

/-- A feed is entered by a change, or by the feed before it. -/
theorem successors_not_feed {i : Instr} {u : BitVec 6} (hi : i ∉ feedWriters)
    (hu : u ∈ successors i) : ¬ (u = Ucode.feedAa ∨ u = Ucode.feed55) := by
  cases i with
  | uDisconnect | uDisable | uCfg | uEnable | uConnect | uFeedAa | uFeed55 =>
    simp [feedWriters] at hi
  | getRate => cases hu
  | _ =>
    revert u
    decide

/-- Every other micro-step starts and ends outside the feeds. -/
theorem exec_not_inFeed {i : Instr} {s t : State} (hi : i ∉ feedWriters)
    (hd : decodeUstep s.ustep = .ok i) (h : exec i s = .next t) : ¬ InFeed s ∧ ¬ InFeed t := by
  have hs : ¬ InFeed s := by
    rintro (hu | hu) <;> rw [hu] at hd <;> obtain rfl := Except.ok.inj hd <;>
      simp [feedWriters] at hi
  refine ⟨hs, ?_⟩
  have h55 : i = .uFeed55 → s.feedRet ∈ feedReturns := by
    rintro rfl
    simp [feedWriters] at hi
  obtain ⟨code, rfl, -⟩ | he | ⟨-, hsucc⟩ := exec_microstep_cases (decodeUstep_format hd) h55 h
  · exact hs
  · simp [InFeed, exec_endsWork_ustep he hd h]
  · exact successors_not_feed hi hsucc

theorem feedReturns_not_feed {u : BitVec 6} (h : u ∈ feedReturns) : pendingFeed u = [] := by
  revert u
  decide

/-- A micro-step keeps the completed trace, appends a change with its feeds, or appends an operation
that needs none. -/
theorem exec_feedInv {i : Instr} {s t : State} (hc : ControlInv s) (hinv : FeedInv s)
    (hd : decodeUstep s.ustep = .ok i) (h : exec i s = .next t) : FeedInv t := by
  by_cases hi : i ∈ feedWriters
  case neg =>
    obtain ⟨hs, ht⟩ := exec_not_inFeed hi hd h
    rw [FeedInv, pendingFeed_of_not_inFeed ht, List.append_nil, exec_trace h]
    refine feedRule_append (feedRule_of_feedInv hinv hs)
      (feedRule_of_needsNoFeed fun e he => ?_)
    exact portOp_needsNoFeed hi (Option.mem_toList.mp he)
  case pos =>
    have hcode := decodeUstep_code hd
    cases i with
    | uDisconnect | uDisable | uCfg | uEnable | uConnect =>
      have hs : ¬ InFeed s := by simp [InFeed, ← CodeWord.ustep6.inj hcode]
      obtain rfl := Host.Outcome.next.inj h
      exact feedInv_of_change hinv hs (by simp [IsChange]) rfl rfl
    | uFeedAa =>
      rw [FeedInv, ← CodeWord.ustep6.inj hcode] at hinv
      obtain rfl := Host.Outcome.next.inj h
      simpa [FeedInv, pendingFeed] using hinv
    | uFeed55 =>
      have hret := feedReturns_not_feed (feedReturn_of_feed55 hc hd rfl)
      have htrace := exec_trace h
      rw [FeedInv, ← CodeWord.ustep6.inj hcode] at hinv
      obtain rfl := Host.Outcome.next.inj h
      rw [FeedInv, htrace, goto_ustep, hret, List.append_nil]
      exact hinv
    | _ => simp [feedWriters] at hi

theorem step_feedInv {s t : State} (hc : ControlInv s) (hinv : FeedInv s)
    (h : step s = .next t) : FeedInv t := by
  cases ht : nextTurn s with
  | reset =>
    obtain ⟨e, rfl⟩ := step_reset ht h
    exact feedInv_reset s.params e
  | host => exact hostMove_feedInv hc hinv (step_host_move ht h)
  | block =>
    obtain ⟨e, rfl⟩ | ⟨-, i, e, hd, hx⟩ := step_block_cases ht h
    · exact feedInv_congr hinv rfl rfl
    · exact exec_feedInv (controlInv_of_env hc e) (feedInv_congr hinv rfl rfl) hd hx

/-! ### Who writes `SEQ_STATE` (R110) -/

/-- All that an instruction can do to `SEQ_STATE`: keep it, or write the one value that is its
own. -/
theorem exec_seqState_cases {i : Instr} {s t : State} (h : exec i s = .next t) :
    t.seqState = s.seqState ∨ (i = .uSrcSel ∧ t.seqState = .disabled) ∨
      (i = .uFeed55 ∧ s.feedRet = Ucode.lockPoll ∧ t.seqState = .enabling) ∨
      (i = .uLockPoll ∧ t.seqState = .locked) ∨ (i = .uConnPoll ∧ t.seqState = .connected) := by
  cases i with
  | nop | init | synth | checkFixed | getRate =>
    exact .inl (exec_command_effect rfl h).hostFrame.seqState
  | uQuerySynth =>
    obtain rfl := Host.Outcome.next.inj h
    exact .inl (querySearch_hostFrame s).seqState
  | uDerive =>
    obtain rfl := exec_uDerive_next h
    obtain ⟨code, hd⟩ | ⟨c, hd⟩ := deriveStep_cases s <;> exact .inl (hd ▸ rfl)
  | uOscPoll =>
    obtain rfl := Host.Outcome.next.inj h
    left
    split
    · unfold oscStableNow
      split <;> rfl
    · rfl
  | uSrcSel =>
    obtain rfl := Host.Outcome.next.inj h
    exact .inr (.inl ⟨rfl, rfl⟩)
  | uFeed55 =>
    obtain rfl := Host.Outcome.next.inj h
    split
    · exact .inr (.inr (.inl ⟨rfl, ‹_›, rfl⟩))
    · exact .inl rfl
  | uLockPoll =>
    obtain rfl := Host.Outcome.next.inj h
    split
    · exact .inr (.inr (.inr (.inl ⟨rfl, rfl⟩)))
    · exact .inl rfl
  | uConnPoll =>
    obtain rfl := Host.Outcome.next.inj h
    split
    · exact .inr (.inr (.inr (.inr ⟨rfl, rfl⟩)))
    · exact .inl rfl
  | uValidate | uCpuDiv | uPbusDiv =>
    obtain rfl := Host.Outcome.next.inj h
    split <;> exact .inl rfl
  | uIdle | uOscEn | uPstatSample | uDisconnect | uDisable | uCfg | uEnable | uConnect | uFeedAa
  | uUsbDiv | uCache =>
    obtain rfl := Host.Outcome.next.inj h
    exact .inl rfl

/-- A micro-step of a busy block keeps `SEQ_STATE` or moves it one place along its list (R110). -/
theorem exec_seqState_moves {i : Instr} {s t : State} (hinv : SeqInv s) (hb : s.busy = true)
    (hd : decodeUstep s.ustep = .ok i) (h : exec i s = .next t) :
    t.seqState = s.seqState ∨
      (s.seqState = .disabled ∧ t.seqState = .enabling ∧ s.ustep = Ucode.feed55 ∧
        s.feedRet = Ucode.lockPoll) ∨
      (s.seqState = .enabling ∧ t.seqState = .locked ∧ s.ustep = Ucode.lockPoll) ∨
      (s.seqState = .locked ∧ t.seqState = .connected ∧ s.ustep = Ucode.connPoll) := by
  obtain hkept | ⟨rfl, ht⟩ | ⟨rfl, hret, ht⟩ | ⟨rfl, ht⟩ | ⟨rfl, ht⟩ := exec_seqState_cases h
  · exact .inl hkept
  all_goals
    have hu := ustep_of_decode hd rfl
    have hs := hinv.running hb (by simp [hu])
  · rw [seqAt_of_beforeBranch (by simp [hu, beforeBranch])] at hs
    exact .inl (ht.trans hs.symm)
  · rw [seqAt_of_feed (.inr hu), if_neg (by simp [hret])] at hs
    exact .inr (.inl ⟨hs, ht, hu, hret⟩)
  · exact .inr (.inr (.inl ⟨by simpa [seqAt, hu] using hs, ht, hu⟩))
  · exact .inr (.inr (.inr ⟨by simpa [seqAt, hu] using hs, ht, hu⟩))

/-! ### The polls (R96, R104, R106, R133) -/

theorem ready_iff {s : State} {bit : Bool} :
    ready s bit = true ↔ s.params.readyBypass = true ∨ bit = true :=
  Bool.or_eq_true_iff

theorem ready_eq_false_iff {s : State} {bit : Bool} :
    ready s bit = false ↔ s.params.readyBypass = false ∧ bit = false :=
  Bool.or_eq_false_iff

theorem exec_uLockPoll_of_ready {s : State} (h : ready s (pstatAnswer s).lock = true) :
    exec .uLockPoll s =
      .next (goto Ucode.connect { afterPstat s with seqState := .locked }) := by
  simp only [exec, execULockPoll, h, if_true]

theorem exec_uLockPoll_of_not_ready {s : State} (h : ready s (pstatAnswer s).lock = false) :
    exec .uLockPoll s = .next (goto Ucode.lockPoll (afterPstat s)) := by
  simp only [exec, execULockPoll, h, Bool.false_eq_true, if_false]

theorem exec_uConnPoll_of_ready {s : State} (h : ready s (pstatAnswer s).conn = true) :
    exec .uConnPoll s =
      .next (enterDividers { afterPstat s with seqState := .connected }) := by
  simp only [exec, execUConnPoll, h, if_true]

theorem exec_uConnPoll_of_not_ready {s : State} (h : ready s (pstatAnswer s).conn = false) :
    exec .uConnPoll s = .next (goto Ucode.connPoll (afterPstat s)) := by
  simp only [exec, execUConnPoll, h, Bool.false_eq_true, if_false]

theorem exec_uOscPoll_of_not_ready {s : State} (h : ready s (oscStatAnswer s) = false) :
    exec .uOscPoll s = .next (goto Ucode.oscPoll (afterOscStat s.curK s)) := by
  simp only [exec, execUOscPoll, h, Bool.false_eq_true, if_false]

/-! ### The second feed (R108) -/

theorem exec_uFeed55 (s : State) :
    exec .uFeed55 s = .next (goto s.feedRet { emit (.feed 0x55) s with
      seqState := if s.feedRet = Ucode.lockPoll then .enabling else s.seqState }) := by
  simp only [exec, execUFeed55]
  split <;> rfl

/-! ### The branch of `U_CPU_DIV` and the step to the next bus (R101, R119) -/

theorem exec_uCpuDiv_of_bypass {s : State} (h : s.pllMode = modeBypass) :
    exec .uCpuDiv s = .next (enterDividers (emit (.cpuDiv s.pllResult.d) s)) := by
  simp only [exec, execUCpuDiv, h, if_true]

theorem exec_uCpuDiv_of_pllMode {s : State} (h : s.pllMode ≠ modeBypass) :
    exec .uCpuDiv s = .next (goto Ucode.cfg (emit (.cpuDiv s.pllResult.d) s)) := by
  simp only [exec, execUCpuDiv, h, if_false]

theorem exec_uPbusDiv_of_more {s : State} (h : s.curN.toNat + 1 < s.params.numPbus) :
    exec .uPbusDiv s = .next (goto Ucode.pbusDiv
      { emit (.pbusDiv s.curN (pbusDivOf s s.curN.toNat)) s with curN := s.curN + 1 }) := by
  simp only [exec, execUPbusDiv, h, if_true]

theorem exec_uPbusDiv_of_last {s : State} (h : s.params.numPbus ≤ s.curN.toNat + 1) :
    exec .uPbusDiv s =
      .next (goto Ucode.cache (emit (.pbusDiv s.curN (pbusDivOf s s.curN.toNat)) s)) := by
  simp only [exec, execUPbusDiv, Nat.not_lt.mpr h, if_false]

theorem bitVec4_succ {n m : BitVec 4} (h : m.toNat = n.toNat + 1) : n + 1 = m := by
  have hlt := m.isLt
  refine BitVec.eq_of_toNat_eq ?_
  rw [BitVec.toNat_add_of_lt (show n.toNat + 1 < 2 ^ 4 by omega), h]
  rfl

/-! ### Runs of the block -/

theorem runFor_add {k : Nat} {s t : State} (h : runFor k s = .next t) (l : Nat) :
    runFor (k + l) s = runFor l t := by
  induction k generalizing s with
  | zero =>
    obtain rfl := Host.Outcome.next.inj h
    rw [Nat.zero_add]
  | succ k ih =>
    rw [Nat.succ_add]
    simp only [runFor] at h ⊢
    split at h
    · exact ih h
    · cases h
    · cases h

/-- The state with these turns to come and this port trace. -/
def observed (sched : List Turn) (tr : List PortEvent) (s : State) : State :=
  { s with env := { s.env with schedule := sched }, trace := tr }

/-- `k` turns of the block lead from `s` to `t` and append `es` to the port trace, whatever the
trace is and whatever turns come after. What `s` and `t` say of their own trace and turns does not
count. -/
def BlockRun (k : Nat) (es : List PortEvent) (s t : State) : Prop :=
  ∀ sched tr, runFor k (observed (List.replicate k .block ++ sched) tr s) =
    .next (observed sched (tr ++ es) t)

/-- A run of the block in which every turn issues one operation. -/
abbrev Issues (es : List PortEvent) (s t : State) : Prop := BlockRun es.length es s t

/-- A busy block of a configuration: it takes its turns (R128). -/
abbrev Running (s : State) : Prop := s.params.ok = true ∧ s.busy = true

theorem BlockRun.refl (s : State) : BlockRun 0 [] s s := fun sched tr => by
  rw [List.append_nil]
  rfl

theorem BlockRun.trans {k l : Nat} {es es' : List PortEvent} {s t u : State}
    (h : BlockRun k es s t) (h' : BlockRun l es' t u) : BlockRun (k + l) (es ++ es') s u := by
  intro sched tr
  rw [← List.replicate_append_replicate, List.append_assoc, runFor_add (h _ tr), h' sched,
    List.append_assoc]

theorem Issues.trans {es es' : List PortEvent} {s t u : State} (h : Issues es s t)
    (h' : Issues es' t u) : Issues (es ++ es') s u := by
  rw [Issues, List.length_append]
  exact BlockRun.trans h h'

/-- A run of the block, in a state whose schedule lists its turns. -/
theorem BlockRun.runFor_eq {k : Nat} {es : List PortEvent} {s t : State} (h : BlockRun k es s t)
    {sched : List Turn} (hs : s.env.schedule = List.replicate k .block ++ sched) :
    runFor k s = .next (observed sched (s.trace ++ es) t) := by
  have hrun := h sched s.trace
  rwa [← hs] at hrun

/-- One turn of a busy block runs the micro-step that `ustep` holds. -/
theorem blockRun_one (i : Instr) {u : BitVec 6} {es : List PortEvent} {s t : State}
    (hr : Running s) (hu : s.ustep = u) (hcode : encode i = .ustep6 u)
    (h : ∀ sched tr, exec i (observed sched tr s) = .next (observed sched (tr ++ es) t)) :
    BlockRun 1 es s t := by
  intro sched tr
  have hstep := (stepRunsMicroStep (observed (.block :: sched) tr s) i sched hr.1 rfl).1 hr.2
    (hcode.trans (congrArg _ hu.symm))
  have hexec : step (observed (.block :: sched) tr s) = .next (observed sched (tr ++ es) t) :=
    hstep.trans (h sched tr)
  show runFor 1 (observed (.block :: sched) tr s) = _
  simp only [runFor, hexec]

/-- The end of an oscillator's wait reads neither the turns to come nor the trace. -/
theorem oscStableNow_observed (sched : List Turn) (tr : List PortEvent) (s : State) :
    oscStableNow (observed sched tr s) = observed sched tr (oscStableNow s) := by
  have hnext : nextOsc (observed sched tr s) (observed sched tr s).curK = nextOsc s s.curK := rfl
  cases h : nextOsc s s.curK with
  | some k => rw [oscStableNow_of_next h, oscStableNow_of_next (hnext.trans h)]; rfl
  | none => rw [oscStableNow_of_last h, oscStableNow_of_last (hnext.trans h)]; rfl

/-! ### Waits (R96) -/

/-- The state with these answers of `PR_PSTAT` to come. -/
def withPstat (as : List PStat) (s : State) : State :=
  { s with env := { s.env with pstatAnswers := as } }

/-- The state with these answers of `PR_OSCSTAT` to come. -/
def withOscStat (as : List Bool) (s : State) : State :=
  { s with env := { s.env with oscAnswers := as } }

/-- Reads that each leave the block where it was, one after the other. -/
theorem issues_reads {α : Type} {P : List α → State} {ev : α → PortEvent} {as : List α}
    (h : ∀ a ∈ as, ∀ rest, Issues [ev a] (P (a :: rest)) (P rest)) (rest : List α) :
    Issues (as.map ev) (P (as ++ rest)) (P rest) := by
  induction as with
  | nil => exact .refl _
  | cons a as ih =>
    have hfirst := h a List.mem_cons_self (as ++ rest)
    exact hfirst.trans (ih fun b hb => h b (List.mem_cons_of_mem a hb))

theorem runFor_of_reads {α : Type} {P : List α → State} {ev : α → PortEvent} {as rest : List α}
    {s : State} {sched : List Turn} (h : ∀ a ∈ as, ∀ rest, Issues [ev a] (P (a :: rest)) (P rest))
    (hs : P (as ++ rest) = s) (hsched : s.env.schedule = List.replicate as.length .block ++ sched) :
    runFor as.length s = .next (observed sched (s.trace ++ as.map ev) (P rest)) := by
  have hreads := issues_reads h rest
  rw [Issues, List.length_map, hs] at hreads
  exact hreads.runFor_eq hsched

theorem ready_of_ends {α : Type} {s : State} {bit : α → Bool} {w : Wait α}
    (h : w.Ends s.params bit) :
    (∀ a ∈ w.before, ready s (bit a) = false) ∧ ready s (bit w.last) = true := by
  unfold Wait.Ends at h
  split at h
  · rename_i hbypass
    exact ⟨by simp [h], ready_iff.mpr (.inl hbypass)⟩
  · rename_i hbypass
    obtain ⟨hbefore, hlast⟩ := h
    exact ⟨fun a ha => ready_eq_false_iff.mpr ⟨by simpa using hbypass, hbefore a ha⟩,
      ready_iff.mpr (.inr hlast)⟩

/-- A wait that ends: every answer but the last leaves the block at the poll `P`, and the last leads
on to `Q`. -/
theorem issues_wait {α : Type} {s : State} {P Q : List α → State} {ev : α → PortEvent}
    {bit : α → Bool} {w : Wait α} (hw : w.Ends s.params bit)
    (hstay : ∀ a, ready s (bit a) = false → ∀ rest, Issues [ev a] (P (a :: rest)) (P rest))
    (hend : ∀ a, ready s (bit a) = true → ∀ rest, Issues [ev a] (P (a :: rest)) (Q rest))
    (rest : List α) : Issues (w.answers.map ev) (P (w.answers ++ rest)) (Q rest) := by
  obtain ⟨hbefore, hlast⟩ := ready_of_ends hw
  rw [Wait.answers, List.map_append, List.append_assoc]
  exact (issues_reads (fun a ha => hstay a (hbefore a ha)) _).trans (hend _ hlast rest)

theorem issues_lockPoll_stay {s : State} (hr : Running s) (hu : s.ustep = Ucode.lockPoll)
    {a : PStat} (ha : ready s a.lock = false) (rest : List PStat) :
    Issues [.pstat a] (withPstat (a :: rest) s) (withPstat rest s) := by
  refine blockRun_one .uLockPoll hr hu rfl fun sched tr => ?_
  rw [exec_uLockPoll_of_not_ready ha]
  simp only [goto, ← hu]
  rfl

theorem issues_lockPoll_end {s : State} (hr : Running s) (hu : s.ustep = Ucode.lockPoll)
    {a : PStat} (ha : ready s a.lock = true) (rest : List PStat) :
    Issues [.pstat a] (withPstat (a :: rest) s)
      (withPstat rest { s with seqState := .locked, ustep := Ucode.connect }) := by
  refine blockRun_one .uLockPoll hr hu rfl fun sched tr => ?_
  rw [exec_uLockPoll_of_ready ha]
  rfl

theorem issues_connPoll_stay {s : State} (hr : Running s) (hu : s.ustep = Ucode.connPoll)
    {a : PStat} (ha : ready s a.conn = false) (rest : List PStat) :
    Issues [.pstat a] (withPstat (a :: rest) s) (withPstat rest s) := by
  refine blockRun_one .uConnPoll hr hu rfl fun sched tr => ?_
  rw [exec_uConnPoll_of_not_ready ha]
  simp only [goto, ← hu]
  rfl

theorem issues_connPoll_end {s : State} (hr : Running s) (hu : s.ustep = Ucode.connPoll)
    {a : PStat} (ha : ready s a.conn = true) (rest : List PStat) :
    Issues [.pstat a] (withPstat (a :: rest) s)
      (enterDividers (withPstat rest { s with seqState := .connected })) := by
  refine blockRun_one .uConnPoll hr hu rfl fun sched tr => ?_
  rw [exec_uConnPoll_of_ready ha]
  rfl

theorem issues_oscPoll_stay {s : State} (hr : Running s) (hu : s.ustep = Ucode.oscPoll)
    {a : Bool} (ha : ready s a = false) (rest : List Bool) :
    Issues [.oscStat s.curK a] (withOscStat (a :: rest) s) (withOscStat rest s) := by
  refine blockRun_one .uOscPoll hr hu rfl fun sched tr => ?_
  rw [exec_uOscPoll_of_not_ready ha]
  simp only [goto, ← hu]
  rfl

theorem issues_oscPoll_end {s : State} (hr : Running s) (hu : s.ustep = Ucode.oscPoll)
    {a : Bool} (ha : ready s a = true) (rest : List Bool) :
    Issues [.oscStat s.curK a] (withOscStat (a :: rest) s) (oscStableNow (withOscStat rest s)) := by
  refine blockRun_one .uOscPoll hr hu rfl fun sched tr => ?_
  have hread : afterOscStat s.curK (observed sched tr (withOscStat (a :: rest) s)) =
      observed sched (tr ++ [.oscStat s.curK a]) (withOscStat rest s) := rfl
  have hexec := exec_uOscPoll_of_ready (s := observed sched tr (withOscStat (a :: rest) s))
    (ready_iff.mp ha)
  rw [← oscStableNow_observed, ← hread]
  exact hexec

/-! ### The PLL phase (R95, R109) -/

/-- The state at micro-step `u`, with `h.feed_ret` and `SEQ_STATE` as given. -/
def atStep (u ret : BitVec 6) (q : SeqState) (s : State) : State :=
  { s with ustep := u, feedRet := ret, seqState := q }

/-- The state that has kept the status sample `a` (R97). -/
def sampled (a : PStat) (s : State) : State := { s with en0 := a.en, conn0 := a.conn }

section
variable {s : State} (hr : Running s) (ret : BitVec 6) (q : SeqState)
include hr

/-- One micro-step of the phase, from its place to the next. -/
theorem issues_one (i : Instr) {u u' ret' : BitVec 6} {q' : SeqState} {as as' : List PStat}
    {e : PortEvent} (hcode : encode i = .ustep6 u)
    (h : ∀ sched tr, exec i (observed sched tr (withPstat as (atStep u ret q s))) =
      .next (observed sched (tr ++ [e]) (withPstat as' (atStep u' ret' q' s)))) :
    Issues [e] (withPstat as (atStep u ret q s)) (withPstat as' (atStep u' ret' q' s)) :=
  blockRun_one i hr rfl hcode h

/-- The feed returns where `h.feed_ret` says; the return to the lock wait sets `ENABLING` (R107,
R108). -/
theorem issues_feedPair {q' : SeqState}
    (hq : q' = if ret = Ucode.lockPoll then .enabling else q) (as : List PStat) :
    Issues feedPair (withPstat as (atStep Ucode.feedAa ret q s))
      (withPstat as (atStep ret ret q' s)) := by
  have haa : Issues [.feed 0xAA] (withPstat as (atStep Ucode.feedAa ret q s))
      (withPstat as (atStep Ucode.feed55 ret q s)) :=
    issues_one hr ret q .uFeedAa rfl fun _ _ => rfl
  have h55 : Issues [.feed 0x55] (withPstat as (atStep Ucode.feed55 ret q s))
      (withPstat as (atStep ret ret q' s)) := by
    subst hq
    exact issues_one hr ret q .uFeed55 rfl fun _ _ => exec_uFeed55 _
  exact haa.trans h55

/-- A change and its feed (R98, R99, R102, R103, R105). -/
theorem issues_change (i : Instr) {u ret' : BitVec 6} {q' : SeqState} {as : List PStat}
    {e : PortEvent} (hcode : encode i = .ustep6 u)
    (hq : q' = if ret' = Ucode.lockPoll then .enabling else q)
    (h : ∀ sched tr, exec i (observed sched tr (withPstat as (atStep u ret q s))) =
      .next (observed sched (tr ++ [e]) (withPstat as (atStep Ucode.feedAa ret' q s)))) :
    Issues (e :: feedPair) (withPstat as (atStep u ret q s))
      (withPstat as (atStep ret' ret' q' s)) :=
  (issues_one hr ret q i hcode h).trans (issues_feedPair hr ret' q hq as)

/-- Steps (1) and (2): the sample, and the writes it asks for, up to `U_SRC_SEL`. -/
theorem issues_disable (a : PStat) (rest : List PStat) :
    ∃ ret', Issues (.pstat a :: disableTrace a)
      (withPstat (a :: rest) (atStep Ucode.pstatSample ret q s))
      (withPstat rest (atStep Ucode.srcSel ret' q (sampled a s))) := by
  have hsample : Issues [.pstat a] (withPstat (a :: rest) (atStep Ucode.pstatSample ret q s))
      (withPstat rest (atStep (if a.conn = true then Ucode.disconnect
        else if a.en = true then Ucode.disable else Ucode.srcSel) ret q (sampled a s))) :=
    blockRun_one .uPstatSample hr rfl rfl fun _ _ => rfl
  have hdisconnect : Issues (.pcon a.en false :: feedPair)
      (withPstat rest (atStep Ucode.disconnect ret q (sampled a s)))
      (withPstat rest (atStep (if a.en = true then Ucode.disable else Ucode.srcSel)
        (if a.en = true then Ucode.disable else Ucode.srcSel) q (sampled a s))) :=
    issues_change (s := sampled a s) hr ret q .uDisconnect rfl (by cases a.en <;> rfl)
      fun _ _ => rfl
  have hdisable (r : BitVec 6) : Issues (.pcon false false :: feedPair)
      (withPstat rest (atStep Ucode.disable r q (sampled a s)))
      (withPstat rest (atStep Ucode.srcSel Ucode.srcSel q (sampled a s))) :=
    issues_change (s := sampled a s) hr r q .uDisable rfl rfl fun _ _ => rfl
  unfold disableTrace
  cases hconn : a.conn <;> cases hen : a.en <;>
    simp only [hconn, hen, Bool.false_eq_true, if_true, if_false] at hsample hdisconnect ⊢
  · exact ⟨_, hsample⟩
  · exact ⟨_, hsample.trans (hdisable _)⟩
  · exact ⟨_, hsample.trans hdisconnect⟩
  · exact ⟨_, hsample.trans (hdisconnect.trans (hdisable _))⟩

theorem issues_srcSel (as : List PStat) :
    Issues [.clkSrc s.clkSrc] (withPstat as (atStep Ucode.srcSel ret q s))
      (withPstat as (atStep Ucode.cpuDiv ret .disabled s)) :=
  issues_one hr ret q .uSrcSel rfl fun _ _ => rfl

theorem issues_cpuDiv_bypass (hm : s.pllMode = modeBypass) (as : List PStat) :
    Issues [.cpuDiv s.pllResult.d] (withPstat as (atStep Ucode.cpuDiv ret q s))
      (enterDividers (withPstat as (atStep Ucode.cpuDiv ret q s))) :=
  blockRun_one .uCpuDiv hr rfl rfl fun _ _ => exec_uCpuDiv_of_bypass hm

theorem issues_cpuDiv_pllMode (hm : s.pllMode ≠ modeBypass) (as : List PStat) :
    Issues [.cpuDiv s.pllResult.d] (withPstat as (atStep Ucode.cpuDiv ret q s))
      (withPstat as (atStep Ucode.cfg ret q s)) :=
  issues_one hr ret q .uCpuDiv rfl fun _ _ => exec_uCpuDiv_of_pllMode hm

theorem issues_lockWait {w : Wait PStat} (hw : w.Ends s.params PStat.lock) (rest : List PStat) :
    Issues (w.answers.map .pstat)
      (withPstat (w.answers ++ rest) (atStep Ucode.lockPoll ret q s))
      (withPstat rest (atStep Ucode.connect ret .locked s)) :=
  issues_wait (P := (withPstat · (atStep Ucode.lockPoll ret q s)))
    (Q := (withPstat · (atStep Ucode.connect ret .locked s))) hw
    (fun _ => issues_lockPoll_stay (s := atStep Ucode.lockPoll ret q s) hr rfl)
    (fun _ => issues_lockPoll_end (s := atStep Ucode.lockPoll ret q s) hr rfl) rest

theorem issues_connWait {w : Wait PStat} (hw : w.Ends s.params PStat.conn) (rest : List PStat) :
    Issues (w.answers.map .pstat)
      (withPstat (w.answers ++ rest) (atStep Ucode.connPoll ret q s))
      (enterDividers (withPstat rest (atStep Ucode.connPoll ret .connected s))) :=
  issues_wait (P := (withPstat · (atStep Ucode.connPoll ret q s)))
    (Q := fun as => enterDividers (withPstat as (atStep Ucode.connPoll ret .connected s))) hw
    (fun _ => issues_connPoll_stay (s := atStep Ucode.connPoll ret q s) hr rfl)
    (fun _ => issues_connPoll_end (s := atStep Ucode.connPoll ret q s) hr rfl) rest

/-- The part of the phase that only the PLL modes have: set, enable, lock, connect. -/
theorem issues_pllModes {lock conn : Wait PStat} (hlock : lock.Ends s.params PStat.lock)
    (hconn : conn.Ends s.params PStat.conn) (rest : List PStat) :
    Issues (pllModesTrace s lock conn)
      (withPstat (lock.answers ++ (conn.answers ++ rest)) (atStep Ucode.cfg ret .disabled s))
      (enterDividers (withPstat rest (atStep Ucode.connPoll Ucode.connPoll .connected s))) := by
  have hcfg (as : List PStat) : Issues (.pcfg s.pllResult.m s.pllResult.n :: feedPair)
      (withPstat as (atStep Ucode.cfg ret .disabled s))
      (withPstat as (atStep Ucode.enable Ucode.enable .disabled s)) :=
    issues_change hr _ _ .uCfg rfl rfl fun _ _ => rfl
  have henable (as : List PStat) : Issues (.pcon true false :: feedPair)
      (withPstat as (atStep Ucode.enable Ucode.enable .disabled s))
      (withPstat as (atStep Ucode.lockPoll Ucode.lockPoll .enabling s)) :=
    issues_change hr _ _ .uEnable rfl rfl fun _ _ => rfl
  have hconnect (as : List PStat) : Issues (.pcon true true :: feedPair)
      (withPstat as (atStep Ucode.connect Ucode.lockPoll .locked s))
      (withPstat as (atStep Ucode.connPoll Ucode.connPoll .locked s)) :=
    issues_change hr _ _ .uConnect rfl rfl fun _ _ => rfl
  have hlocked := issues_lockWait hr Ucode.lockPoll .enabling hlock (conn.answers ++ rest)
  have hconnected := issues_connWait hr Ucode.connPoll .locked hconn rest
  exact ((((hcfg _).trans (henable _)).trans hlocked).trans (hconnect _)).trans hconnected

end

/-- The operations of the PLL phase in the mode (R109). -/
def pllPhaseOps (s : State) (a : PStat) (lock conn : Wait PStat) : List PortEvent :=
  commonPllTrace s a ++ (if s.pllMode = modeBypass then [] else pllModesTrace s lock conn)

/-- The answers that the PLL phase reads in the mode. -/
def pllPhaseAnswers (s : State) (a : PStat) (lock conn : Wait PStat) : List PStat :=
  a :: (if s.pllMode = modeBypass then [] else lock.answers ++ conn.answers)

/-- The whole PLL phase, up to the entry to the `DIVIDERS` phase. -/
theorem issues_pllPhase {s : State} (hr : Running s) (hu : s.ustep = Ucode.pstatSample) (a : PStat)
    {lock conn : Wait PStat} (hlock : lock.Ends s.params PStat.lock)
    (hconn : conn.Ends s.params PStat.conn) (rest : List PStat) :
    ∃ u ret, Issues (pllPhaseOps s a lock conn)
      (withPstat (pllPhaseAnswers s a lock conn ++ rest) s)
      (enterDividers (withPstat rest (atStep u ret (finalSeq s) (sampled a s)))) := by
  have hstart : s = atStep Ucode.pstatSample s.feedRet s.seqState s := by rw [← hu]; rfl
  have hcommon : commonPllTrace s a =
      (.pstat a :: disableTrace a) ++ [.clkSrc s.clkSrc] ++ [.cpuDiv s.pllResult.d] := by
    simp [commonPllTrace]
  rw [pllPhaseOps, pllPhaseAnswers, finalSeq, hcommon]
  by_cases hm : s.pllMode = modeBypass
  · simp only [if_pos hm, List.append_nil]
    obtain ⟨ret, hdisable⟩ := issues_disable hr s.feedRet s.seqState a rest
    rw [← hstart] at hdisable
    have hsrc := issues_srcSel (s := sampled a s) hr ret s.seqState rest
    have hcpu := issues_cpuDiv_bypass (s := sampled a s) hr ret .disabled hm rest
    exact ⟨_, ret, (hdisable.trans hsrc).trans hcpu⟩
  · simp only [if_neg hm, List.cons_append, List.append_assoc lock.answers]
    obtain ⟨ret, hdisable⟩ :=
      issues_disable hr s.feedRet s.seqState a (lock.answers ++ (conn.answers ++ rest))
    rw [← hstart] at hdisable
    have hsrc := issues_srcSel (s := sampled a s) hr ret s.seqState
      (lock.answers ++ (conn.answers ++ rest))
    have hcpu := issues_cpuDiv_pllMode (s := sampled a s) hr ret .disabled hm
      (lock.answers ++ (conn.answers ++ rest))
    have hpll := issues_pllModes (s := sampled a s) hr ret hlock hconn rest
    exact ⟨_, _, ((hdisable.trans hsrc).trans hcpu).trans hpll⟩

/-! ### The `DIVIDERS` phase (R117 to R119) -/

/-- The state about to write the divider of bus `n`. -/
def atBus (n : Nat) (s : State) : State :=
  { s with ustep := Ucode.pbusDiv, curN := BitVec.ofNat 4 n }

/-- The write of bus `n`'s divider. -/
def busWrite (s : State) (n : Nat) : PortEvent := .pbusDiv (BitVec.ofNat 4 n) (pbusDivOf s n)

theorem bus_toNat {s : State} (hr : Running s) {n : Nat} (hn : n < s.params.numPbus) :
    (BitVec.ofNat 4 n).toNat = n := by
  have hmax := (Params.ok_facts hr.1).numPbusMax
  exact toNat_ofNat_of_lt (show n < 16 by omega)

theorem issues_bus {s : State} (hr : Running s) {n : Nat} (hn : n + 1 < s.params.numPbus) :
    Issues [busWrite s n] (atBus n s) (atBus (n + 1) s) := by
  have hcur : (BitVec.ofNat 4 n).toNat = n := bus_toNat hr (Nat.lt_of_succ_lt hn)
  have hnext : BitVec.ofNat 4 n + 1 = BitVec.ofNat 4 (n + 1) :=
    bitVec4_succ ((bus_toNat hr hn).trans (congrArg (· + 1) hcur.symm))
  refine blockRun_one .uPbusDiv hr rfl rfl fun sched tr => ?_
  rw [exec_uPbusDiv_of_more (s := observed sched tr (atBus n s)) (hcur.symm ▸ hn), busWrite, atBus,
    atBus, ← hnext]
  show Host.Outcome.next (goto _ { emit (.pbusDiv _ (pbusDivOf s (BitVec.ofNat 4 n).toNat)) _ with
    curN := _ }) = _
  rw [hcur]
  rfl

theorem issues_lastBus {s : State} (hr : Running s) {n : Nat} (hn : n + 1 = s.params.numPbus) :
    Issues [busWrite s n] (atBus n s) (goto Ucode.cache (atBus n s)) := by
  have hcur : (BitVec.ofNat 4 n).toNat = n := bus_toNat hr (hn ▸ Nat.lt_succ_self n)
  refine blockRun_one .uPbusDiv hr rfl rfl fun sched tr => ?_
  rw [exec_uPbusDiv_of_last (s := observed sched tr (atBus n s)) (hcur.symm ▸ hn.symm.le), busWrite]
  show Host.Outcome.next (goto _ (emit (.pbusDiv _ (pbusDivOf s (BitVec.ofNat 4 n).toNat)) _)) = _
  rw [hcur]
  rfl

/-- The buses below `n`, in ascending order. -/
theorem issues_buses {s : State} (hr : Running s) {n : Nat} (hn : n < s.params.numPbus) :
    Issues ((List.range n).map (busWrite s)) (atBus 0 s) (atBus n s) := by
  induction n with
  | zero => exact .refl _
  | succ n ih =>
    rw [List.range_succ, List.map_append]
    exact (ih (Nat.lt_of_succ_lt hn)).trans (issues_bus hr hn)

/-- The whole phase, from its entry to `U_CACHE`. -/
theorem issues_dividers {s : State} (hr : Running s) :
    ∃ n, Issues (dividersTrace s) (enterDividers s) (goto Ucode.cache (atBus n s)) := by
  have hmin := (Params.ok_facts hr.1).numPbusMin
  obtain ⟨n, hn⟩ := Nat.exists_eq_add_of_le' hmin
  have hbuses : Issues ((List.range s.params.numPbus).map (busWrite s)) (atBus 0 s)
      (goto Ucode.cache (atBus n s)) := by
    rw [hn, List.range_succ, List.map_append]
    exact (issues_buses hr (by omega)).trans (issues_lastBus hr hn.symm)
  refine ⟨n, ?_⟩
  cases hu : s.usbEn with
  | false =>
    have hstart : enterDividers s = atBus 0 s := by
      rw [enterDividers, if_neg (by simp [hu])]
      rfl
    rw [dividersTrace, if_neg (by simp [hu]), hstart]
    exact hbuses
  | true =>
    have hstart : enterDividers s = goto Ucode.usbDiv { s with curN := 0 } := by
      rw [enterDividers, if_pos hu]
    rw [dividersTrace, if_pos hu, hstart]
    have husb : Issues [.usbDiv s.usbDiv] (goto Ucode.usbDiv { s with curN := 0 }) (atBus 0 s) :=
      blockRun_one .uUsbDiv hr rfl rfl fun _ _ => rfl
    exact husb.trans hbuses

/-! ### The `OSC` phase (R130, R132, R133) -/

/-- The state at micro-step `u` for oscillator `k`, with `OSC_STATUS` as given. -/
def atOsc (u : BitVec 6) (k : BitVec 2) (enabled stable : BitVec 4) (s : State) : State :=
  { s with ustep := u, curK := k, oscEnabled := enabled, oscStable := stable }

/-- The oscillators in use before one are below it, the ones after it above. -/
theorem inUse_around {s : State} {k : BitVec 2} {before after : List (BitVec 2)}
    (h : inUse s = before ++ k :: after) :
    (∀ j ∈ before, j.toNat < k.toNat) ∧ (∀ j ∈ after, k.toNat < j.toNat) := by
  have hsorted := inUse_sorted s
  rw [h, List.pairwise_append, List.pairwise_cons] at hsorted
  obtain ⟨-, ⟨habove, -⟩, hbelow⟩ := hsorted
  exact ⟨fun j hj => hbelow j hj k List.mem_cons_self, habove⟩

theorem nextOsc_eq_head? {s : State} {k : BitVec 2} {before after : List (BitVec 2)}
    (h : inUse s = before ++ k :: after) : nextOsc s k = after.head? := by
  obtain ⟨hbelow, habove⟩ := inUse_around h
  have hbefore : before.find? (fun j => decide (k.toNat < j.toNat)) = none :=
    List.find?_eq_none.mpr fun j hj => by have := hbelow j hj; simp; omega
  rw [nextOsc, h, List.find?_append, hbefore, Option.none_or,
    List.find?_cons_of_neg (by simp)]
  cases after with
  | nil => rfl
  | cons j after => rw [List.find?_cons_of_pos (by simpa using habove j List.mem_cons_self)]; rfl

section
variable {s : State} (hr : Running s) (k : BitVec 2) (enabled stable : BitVec 4)
include hr

/-- One oscillator: it is enabled, and the wait for it ends. -/
theorem issues_oscillator {w : Wait Bool} (hw : w.Ends s.params id) (rest : List Bool) :
    Issues (oscTrace k w)
      (withOscStat (w.answers ++ rest) (atOsc Ucode.oscEn k enabled stable s))
      (oscStableNow
        (withOscStat rest (atOsc Ucode.oscPoll k (setBit4 enabled k) stable s))) := by
  have henable (as : List Bool) : Issues [.oscEn k]
      (withOscStat as (atOsc Ucode.oscEn k enabled stable s))
      (withOscStat as (atOsc Ucode.oscPoll k (setBit4 enabled k) stable s)) :=
    blockRun_one .uOscEn hr rfl rfl fun _ _ => rfl
  have hwait := issues_wait (s := s) (ev := .oscStat k)
    (P := (withOscStat · (atOsc Ucode.oscPoll k (setBit4 enabled k) stable s)))
    (Q := fun as => oscStableNow
      (withOscStat as (atOsc Ucode.oscPoll k (setBit4 enabled k) stable s))) hw
    (fun _ => issues_oscPoll_stay (s := atOsc Ucode.oscPoll k (setBit4 enabled k) stable s) hr rfl)
    (fun _ => issues_oscPoll_end (s := atOsc Ucode.oscPoll k (setBit4 enabled k) stable s) hr rfl)
    rest
  exact (henable _).trans hwait

end

/-- The oscillators in use from `k` on, up to `U_DERIVE`. -/
theorem issues_oscillators {s : State} (hr : Running s) {osc : BitVec 2 → Wait Bool}
    (hosc : ∀ k, (osc k).Ends s.params id) (rest : List Bool) {before after : List (BitVec 2)}
    {k : BitVec 2} (h : inUse s = before ++ k :: after) (enabled stable : BitVec 4) :
    ∃ k' enabled' stable', Issues ((k :: after).flatMap fun j => oscTrace j (osc j))
      (withOscStat ((k :: after).flatMap (fun j => (osc j).answers) ++ rest)
        (atOsc Ucode.oscEn k enabled stable s))
      (withOscStat rest (atOsc Ucode.derive k' enabled' stable' s)) := by
  induction after generalizing before k enabled stable with
  | nil =>
    have hone := issues_oscillator hr k enabled stable (hosc k) rest
    rw [oscStableNow_of_last (nextOsc_eq_head? h)] at hone
    simp only [List.flatMap_singleton]
    exact ⟨k, _, _, hone⟩
  | cons j after ih =>
    have hone := issues_oscillator hr k enabled stable (hosc k)
      ((j :: after).flatMap (fun j => (osc j).answers) ++ rest)
    rw [oscStableNow_of_next (nextOsc_eq_head? h)] at hone
    obtain ⟨k', enabled', stable', hrest⟩ :=
      ih (before := before ++ [k]) (by rw [h, List.append_assoc]; rfl) (setBit4 enabled k)
        (setBit4 stable k)
    rw [List.flatMap_cons, List.flatMap_cons (f := fun j => (osc j).answers), List.append_assoc]
    exact ⟨k', enabled', stable', hone.trans hrest⟩

theorem inUse_eq_cons (s : State) : ∃ after, inUse s = minInUse s :: after := by
  have hmem : s.clkSrc ∈ inUse s := mem_inUse.mpr (.inr rfl)
  unfold minInUse
  cases h : inUse s with
  | nil => simp [h] at hmem
  | cons k after => exact ⟨after, rfl⟩

/-! ### The steps of `INIT` that issue nothing (R120, R131, R134) -/

theorem blockRun_validate {s : State} (hr : Running s) (hu : s.ustep = Ucode.validate)
    (hlegal : ConfigLegal s) :
    BlockRun 1 [] s (atOsc Ucode.oscEn (minInUse s) s.oscEnabled s.oscStable s) := by
  refine blockRun_one .uValidate hr hu rfl fun sched tr => ?_
  have hpass : validateFault (observed sched tr s) = none :=
    validateFault_eq_none_iff.mpr (configLegal_congr hlegal rfl)
  simp only [exec, execUValidate, hpass, List.append_nil]
  rfl

theorem blockRun_derive {s : State} (hr : Running s) (hu : s.ustep = Ucode.derive) {c : PllChoice}
    (hc : Chosen s c) (hcpu : CpuRateLegal s c) (husb : UsbRateLegal s c) :
    BlockRun 1 [] s (goto Ucode.pstatSample { s with pllResult := choiceTriple c }) := by
  refine blockRun_one .uDerive hr hu rfl fun sched tr => ?_
  have hpass := deriveStep_of_chosen (s := observed sched tr s) hc hcpu husb
  have hmode : (observed sched tr s).pllMode ≠ modeReserved := mode_of_chosen hc
  simp only [exec, execUDerive, hmode, if_false, hpass, List.append_nil]
  rfl

/-- `U_CACHE` ends `INIT` (R120). -/
def cached (s : State) : State :=
  goto Ucode.idle { s with rate := domainRates s, initDone := true, busy := false }

theorem blockRun_cache {s : State} (hr : Running s) (hu : s.ustep = Ucode.cache) :
    BlockRun 1 [] s (cached s) := by
  refine blockRun_one .uCache hr hu rfl fun sched tr => ?_
  rw [List.append_nil]
  rfl

/-- What `U_CACHE` leaves agrees with the choice that `U_DERIVE` has stored (R111, R116, R120). -/
theorem cacheAgrees_cached {s t : State} {c : PllChoice} (hok : s.params.ok = true)
    (hlegal : ConfigLegal s) (hc : Chosen s c) (hcpu : CpuRateLegal s c) (husb : UsbRateLegal s c)
    (hv : configView t = configView s) (hp : t.pllResult = choiceTriple c) :
    CacheAgrees (cached t) := by
  have hfacts := Params.ok_facts hok
  have hresult : resultChoice { s with pllResult := choiceTriple c } = c :=
    resultChoice_of_chosen hc hfacts rfl
  have hderived : DerivedLegal { s with pllResult := choiceTriple c } :=
    ⟨by rw [hresult]; exact hc, by rw [hresult]; exact hcpu, by rw [hresult]; exact husb⟩
  have hagrees := cacheAgrees_domainRates (params_of_configView hv ▸ hfacts)
    (configLegal_congr hlegal hv) (derivedLegal_congr hderived hv hp)
  exact cacheAgrees_congr hagrees rfl rfl rfl

/-! ### What the phases keep of the configuration -/

theorem configView_goto (u : BitVec 6) (s : State) : configView (goto u s) = configView s := rfl

theorem configView_atBus (n : Nat) (s : State) : configView (atBus n s) = configView s := rfl

theorem configView_withPstat (as : List PStat) (s : State) :
    configView (withPstat as s) = configView s := rfl

theorem configView_atStep (u ret : BitVec 6) (q : SeqState) (s : State) :
    configView (atStep u ret q s) = configView s := rfl

theorem configView_sampled (a : PStat) (s : State) : configView (sampled a s) = configView s := rfl

theorem running_of_configView {s t : State} (hr : Running s) (hv : configView t = configView s)
    (hb : t.busy = s.busy) : Running t :=
  ⟨params_of_configView hv ▸ hr.1, hb.trans hr.2⟩

/-! ### The whole of `INIT` (R135) -/

/-- The operations of the `OSC` phase, with the wait of each oscillator (R135). -/
def oscPhaseOps (s : State) (osc : BitVec 2 → Wait Bool) : List PortEvent :=
  (inUse s).flatMap fun k => oscTrace k (osc k)

/-- From the start of `INIT` to the PLL phase: the check, the `OSC` phase and the derivation. -/
theorem blockRun_untilPll {s : State} (hr : Running s) (hu : s.ustep = Ucode.validate)
    (hlegal : ConfigLegal s) {c : PllChoice} (hc : Chosen s c) (hcpu : CpuRateLegal s c)
    (husb : UsbRateLegal s c) {osc : BitVec 2 → Wait Bool} (hosc : ∀ k, (osc k).Ends s.params id)
    {rest : List Bool}
    (has : s.env.oscAnswers = (inUse s).flatMap (fun k => (osc k).answers) ++ rest) :
    ∃ t, BlockRun (1 + (oscPhaseOps s osc).length + 1) (oscPhaseOps s osc) s t ∧ Running t ∧
      t.ustep = Ucode.pstatSample ∧ configView t = configView s ∧
      t.pllResult = choiceTriple c ∧ t.env.pstatAnswers = s.env.pstatAnswers := by
  obtain ⟨after, hin⟩ := inUse_eq_cons s
  obtain ⟨k, enabled, stable, hphase⟩ :=
    issues_oscillators (before := []) hr hosc rest hin s.oscEnabled s.oscStable
  rw [← hin, ← has] at hphase
  have hderive := blockRun_derive (s := withOscStat rest (atOsc Ucode.derive k enabled stable s))
    hr rfl hc hcpu husb
  have hrun := ((blockRun_validate hr hu hlegal).trans hphase).trans hderive
  rw [List.append_nil] at hrun
  exact ⟨_, hrun, hr, rfl, rfl, rfl, rfl⟩

/-- The operations of the PLL phase are those of the configuration and the result. -/
theorem pllPhaseOps_congr {s t : State} (hv : configView t = configView s)
    (hp : t.pllResult = s.pllResult) (a : PStat) (lock conn : Wait PStat) :
    pllPhaseOps t a lock conn = pllPhaseOps s a lock conn :=
  calc pllPhaseOps t a lock conn
    _ = pllPhaseOps { configView t with pllResult := t.pllResult } a lock conn := rfl
    _ = pllPhaseOps { configView s with pllResult := s.pllResult } a lock conn := by rw [hv, hp]
    _ = pllPhaseOps s a lock conn := rfl

theorem dividersTrace_congr {s t : State} (hv : configView t = configView s) :
    dividersTrace t = dividersTrace s :=
  calc dividersTrace t
    _ = dividersTrace (configView t) := rfl
    _ = dividersTrace (configView s) := by rw [hv]
    _ = dividersTrace s := rfl

/-- The `PLL` and the `DIVIDERS` phase: they leave the configuration and the result they began with,
and the mode's `SEQ_STATE`. -/
theorem issues_pllAndDividers {s : State} (hr : Running s) (hu : s.ustep = Ucode.pstatSample)
    {a : PStat} {lock conn : Wait PStat} (hlock : lock.Ends s.params PStat.lock)
    (hconn : conn.Ends s.params PStat.conn) {rest : List PStat}
    (has : s.env.pstatAnswers = pllPhaseAnswers s a lock conn ++ rest) :
    ∃ t, Issues (pllPhaseOps s a lock conn ++ dividersTrace s) s t ∧ Running t ∧
      t.ustep = Ucode.cache ∧ configView t = configView s ∧ t.pllResult = s.pllResult ∧
      t.seqState = finalSeq s := by
  obtain ⟨u, ret, hpll⟩ := issues_pllPhase hr hu a hlock hconn rest
  rw [← has] at hpll
  have hv : configView (withPstat rest (atStep u ret (finalSeq s) (sampled a s))) = configView s := by
    rw [configView_withPstat, configView_atStep, configView_sampled]
  have hr' := running_of_configView hr hv rfl
  obtain ⟨n, hdividers⟩ := issues_dividers hr'
  rw [dividersTrace_congr hv] at hdividers
  have hv' : configView (goto Ucode.cache
      (atBus n (withPstat rest (atStep u ret (finalSeq s) (sampled a s))))) = configView s := by
    rw [configView_goto, configView_atBus, hv]
  exact ⟨_, hpll.trans hdividers, running_of_configView hr hv' rfl, goto_ustep _ _, hv', rfl, rfl⟩

theorem sameConfig_of_configView {s t : State} (h : configView t = configView s) :
    SameConfig s t where
  oscFreq := (congrArg State.oscFreq h :)
  oscEn := (congrArg State.oscEn h :)
  clkSrc := (congrArg State.clkSrc h :)
  pllMode := (congrArg State.pllMode h :)
  desiredFreq := (congrArg State.desiredFreq h :)
  fixedMN := (congrArg State.fixedMN h :)
  cpuDiv := (congrArg State.cpuDiv h :)
  usbEn := (congrArg State.usbEn h :)
  usbDiv := (congrArg State.usbDiv h :)
  pbusDiv := (congrArg State.pbusDiv h :)

/-- The operations of a whole `INIT` that chooses `c` (R135). -/
def initOps (s : State) (c : PllChoice) (osc : BitVec 2 → Wait Bool) (a : PStat)
    (lock conn : Wait PStat) : List PortEvent :=
  oscPhaseOps s osc ++
    (pllPhaseOps { s with pllResult := choiceTriple c } a lock conn ++ dividersTrace s)

/-- A whole `INIT` that succeeds, up to what `U_CACHE` leaves: three turns issue nothing. -/
theorem blockRun_init {s : State} (hr : Running s) (hu : s.ustep = Ucode.validate)
    (hlegal : ConfigLegal s) {c : PllChoice} (hc : Chosen s c) (hcpu : CpuRateLegal s c)
    (husb : UsbRateLegal s c) {osc : BitVec 2 → Wait Bool} (hosc : ∀ k, (osc k).Ends s.params id)
    {a : PStat} {lock conn : Wait PStat} (hlock : lock.Ends s.params PStat.lock)
    (hconn : conn.Ends s.params PStat.conn) {restO : List Bool} {restP : List PStat}
    (hansO : s.env.oscAnswers = (inUse s).flatMap (fun k => (osc k).answers) ++ restO)
    (hansP : s.env.pstatAnswers = pllPhaseAnswers s a lock conn ++ restP) :
    ∃ t, BlockRun ((initOps s c osc a lock conn).length + 3) (initOps s c osc a lock conn) s
        (cached t) ∧
      configView t = configView s ∧ t.pllResult = choiceTriple c ∧ t.seqState = finalSeq s := by
  obtain ⟨u, hstart, hru, huu, hvu, hpu, heu⟩ :=
    blockRun_untilPll hr hu hlegal hc hcpu husb hosc hansO
  have hparams := params_of_configView hvu
  have hanswers : pllPhaseAnswers u a lock conn = pllPhaseAnswers s a lock conn := by
    rw [pllPhaseAnswers, pllMode_of_configView hvu, pllPhaseAnswers]
  obtain ⟨t, hphases, hrt, hut, hvt, hpt, hqt⟩ := issues_pllAndDividers (rest := restP) hru huu
    (hparams ▸ hlock) (hparams ▸ hconn) (heu.trans (hanswers ▸ hansP))
  have hrun := (hstart.trans hphases).trans (blockRun_cache hrt hut)
  have hops : oscPhaseOps s osc ++ (pllPhaseOps u a lock conn ++ dividersTrace u) ++ [] =
      initOps s c osc a lock conn := by
    rw [List.append_nil, dividersTrace_congr hvu,
      pllPhaseOps_congr (s := { s with pllResult := choiceTriple c }) hvu hpu, initOps]
  have hturns : 1 + (oscPhaseOps s osc).length + 1 +
      (pllPhaseOps u a lock conn ++ dividersTrace u).length + 1 =
      (initOps s c osc a lock conn).length + 3 := by
    rw [← hops, List.append_nil, List.length_append (as := oscPhaseOps s osc)]
    omega
  rw [hops, hturns] at hrun
  exact ⟨t, hrun, hvt.trans hvu, hpt.trans hpu, hqt.trans (finalSeq_of_configView hvu)⟩

/-! ### The obligations -/

/-- Settles O50: a reset, a host's turn and a micro-step each keep the completed trace in order. -/
theorem feedRuleKept : Obligations.FeedRuleKept :=
  ⟨fun p hok => ⟨controlInv_reset hok .empty, feedInv_reset p .empty⟩,
    fun _ _ => step_feedInv, fun _ => feedRule_of_feedInv⟩

/-- Settles O56: a micro-step that writes `SEQ_STATE` stands, by the sequencer's invariant, at the
state before the one it writes. -/
theorem seqStateMovesForward : Obligations.SeqStateMovesForward := by
  have hhost : ∀ s t : State, nextTurn s = .host → step s = .next t → t.seqState = s.seqState :=
    fun s t ht h => (step_host_effect ht h).hostFrame.seqState
  refine ⟨fun s t hc hinv hn h => ?_, fun s => ⟨_, rfl, rfl⟩, hhost⟩
  cases ht : nextTurn s with
  | reset => exact absurd ht hn
  | host => exact .inl (hhost s t ht h)
  | block =>
    obtain ⟨e, rfl⟩ | ⟨hb, i, e, hd, hx⟩ := step_block_cases ht h
    · exact .inl rfl
    · have hmoves := exec_seqState_moves (s := { s with env := e }) { hinv with } hb hd hx
      exact hmoves.imp_right fun hmoves => ⟨rfl, hb, hmoves⟩

/-- Settles O34: each write is its meaning, read off; `U_CPU_DIV` goes to `U_CFG` in the PLL
modes. -/
theorem sequencerWrites : Obligations.SequencerWrites :=
  fun _ => ⟨rfl, rfl, rfl, exec_uCpuDiv_of_pllMode, rfl, rfl, rfl⟩

/-- Settles O35: the second feed's return decides `SEQ_STATE`. -/
theorem feedWrites : Obligations.FeedWrites := fun s => ⟨rfl, exec_uFeed55 s⟩

/-- Settles O36: the answer drawn, or the bypass, decides whether the wait ends. -/
theorem lockAndConnectPolls : Obligations.LockAndConnectPolls := by
  rintro s _ rfl
  exact ⟨fun h => exec_uLockPoll_of_ready (ready_iff.mpr h),
    fun hbypass hbit => exec_uLockPoll_of_not_ready (ready_eq_false_iff.mpr ⟨hbypass, hbit⟩),
    fun h => exec_uConnPoll_of_ready (ready_iff.mpr h),
    fun hbypass hbit => exec_uConnPoll_of_not_ready (ready_eq_false_iff.mpr ⟨hbypass, hbit⟩)⟩

/-- Settles O38: the bus index selects the divider, and its successor does not overflow. -/
theorem dividerWrites : Obligations.DividerWrites := by
  refine fun s => ⟨exec_uCpuDiv_of_bypass, rfl, fun d hd => ?_⟩
  have hdiv : pbusDivOf s s.curN.toNat = d := by
    rw [pbusDivOf, List.getD_eq_getElem?_getD, hd, Option.getD_some]
  refine ⟨fun n hn hlt => ?_, fun hlast => ?_⟩
  · rw [exec_uPbusDiv_of_more (hn ▸ hlt), hdiv, bitVec4_succ hn]
    rfl
  · rw [exec_uPbusDiv_of_last hlast, hdiv]
    rfl

/-- Settles O37: each unanswered read leaves the wait where it was, and there is no other. -/
theorem waitsHaveNoTimeout : Obligations.WaitsHaveNoTimeout := by
  intro s sched k hok hbypass hb hsched
  have hr : Running s := ⟨hok, hb⟩
  have hnot {bit : Bool} (h : bit = false) : ready s bit = false :=
    ready_eq_false_iff.mpr ⟨hbypass, h⟩
  refine ⟨fun as rest hlen has hwait => ?_, fun rest has hu => ?_⟩
  · subst hlen
    have hs : withPstat (as ++ rest) s = s := by rw [← has]; rfl
    obtain ⟨hu, hbits⟩ | ⟨hu, hbits⟩ := hwait
    · exact runFor_of_reads (P := (withPstat · s))
        (fun a ha => issues_lockPoll_stay hr hu (hnot (hbits a ha))) hs hsched
    · exact runFor_of_reads (P := (withPstat · s))
        (fun a ha => issues_connPoll_stay hr hu (hnot (hbits a ha))) hs hsched
  · have hs : withOscStat (List.replicate k false ++ rest) s = s := by rw [← has]; rfl
    have hrun := runFor_of_reads (P := (withOscStat · s)) (sched := sched)
      (fun a ha => issues_oscPoll_stay hr hu (hnot (List.eq_of_mem_replicate ha))) hs
      (by rwa [List.length_replicate])
    rw [List.length_replicate, List.map_replicate] at hrun
    exact hrun

/-- Settles O57: the phase is its parts in order, each from where the one before it ends. -/
theorem pllPhaseTrace : Obligations.PllPhaseTrace := by
  intro s a lock conn rest sched tr as hok hb hu hlock hconn htr has hanswers hsched
  subst htr has
  obtain ⟨u, r, hrun⟩ := issues_pllPhase ⟨hok, hb⟩ hu a hlock hconn rest
  have hs : withPstat (pllPhaseAnswers s a lock conn ++ rest) s = s := by
    rw [pllPhaseAnswers, ← hanswers]
    rfl
  rw [hs] at hrun
  exact ⟨_, hrun.runFor_eq hsched, rfl, rfl, rfl, rfl, hb, rfl⟩

/-- Settles O59: `INIT` is its phases in order, and `U_CACHE` leaves the floors of the choice. -/
theorem initRunTrace : Obligations.InitRunTrace := by
  intro s c osc a lock conn restO restP sched tr as hok hb hu hlegal hc hcpu husb hosc hlock hconn
    htr has hansO hansP hsched
  subst has
  have hops : tr = initOps s c osc a lock conn := by
    rw [htr, List.append_assoc, List.append_assoc, initOps, pllPhaseOps, List.append_assoc]
    rfl
  subst hops
  obtain ⟨t, hrun, hv, hp, hq⟩ := blockRun_init ⟨hok, hb⟩ hu hlegal hc hcpu husb hosc hlock hconn
    hansO hansP
  have hagrees := cacheAgrees_cached hok hlegal hc hcpu husb hv hp
  exact ⟨_, hrun.runFor_eq hsched, rfl, rfl, rfl, rfl, hq, hp,
    { sameConfig_of_configView hv with }, { hagrees with }⟩

end Sys2Proof.Proofs

/-! PROOFS. The statements of 42_clock_tree.md: what `U_VALIDATE`, `U_DERIVE` and `U_CACHE` do, and
the `DIVIDERS` phase; then the obligations. -/

namespace Sys2Proof.Proofs

open Sys2Proof.Machine Sys2Proof.Safety

/-! ### The first oscillator (R130, R131) -/

/-- `min(U)` is the head of the ascending list of the oscillators in use. -/
theorem minInUse_of_least {s : State} {k : BitVec 2} (hk : InUse s k)
    (hleast : ∀ j, InUse s j → k.toNat ≤ j.toNat) : minInUse s = k := by
  obtain ⟨after, hlist⟩ := inUse_eq_cons s
  have hmin : InUse s (minInUse s) := mem_inUse.mp (hlist ▸ List.mem_cons_self)
  have hmem : k ∈ minInUse s :: after := hlist ▸ mem_inUse.mpr hk
  obtain rfl | htail := List.mem_cons.mp hmem
  · rfl
  · obtain ⟨-, habove⟩ := inUse_around (before := []) hlist
    exact absurd (hleast _ hmin) (Nat.not_le.mpr (habove k htail))

theorem exec_uValidate_of_legal {s : State} (h : ConfigLegal s) :
    exec .uValidate s = .next (goto Ucode.oscEn { s with curK := minInUse s }) := by
  simp only [exec, execUValidate, validateFault_eq_none_iff.mpr h]

/-! ### The faults of `U_DERIVE` (R116, R134) -/

theorem exec_uDerive_of_mode {s : State} (hm : s.pllMode ≠ modeReserved) :
    exec .uDerive s = .next (deriveStep s) := if_neg hm

theorem chosenTriple_of_synth {s : State} (hm : s.pllMode = modeSynth) :
    chosenTriple s = search s.params (finOf s) s.desiredFreq.toNat := if_pos hm

/-- The CPU limit is checked first (R142). -/
theorem rateFault_of_not_cpuRateLegal {s : State} {c : PllChoice} (h : ¬ CpuRateLegal s c) :
    rateFault s c = some .cpuRate := by
  simp only [rateFault, pllClock_eq]
  exact if_pos (Nat.lt_of_not_le h)

theorem rateFault_of_not_usbRateLegal {s : State} {c : PllChoice} (hcpu : CpuRateLegal s c)
    (husb : ¬ UsbRateLegal s c) : rateFault s c = some .usbRate := by
  simp only [rateFault, pllClock_eq]
  rw [if_neg (Nat.not_lt.mpr hcpu), if_pos (Classical.not_imp.mp husb)]

theorem deriveStep_of_unsat {s : State} (h : chosenTriple s = none) :
    deriveStep s = raiseFatal .unsatisfiable s := by
  simp only [deriveStep, h]

theorem exec_uDerive_of_rateFault {s : State} {c : PllChoice} {code : FaultCode}
    (hc : Chosen s c) (h : rateFault s c = some code) :
    exec .uDerive s = .next (raiseFatal code s) := by
  have hm := mode_of_chosen hc
  rw [exec_uDerive_of_mode hm]
  simp only [deriveStep, (chosenTriple_eq_some_iff hm).mpr hc, h]

/-! ### The entry of the `DIVIDERS` phase (R117) -/

/-- A state that stands at the entry of the phase is what `enter_dividers()` makes of it. -/
theorem enterDividers_eq_self {s : State} (hn : s.curN = 0)
    (hu : s.ustep = (if s.usbEn = true then Ucode.usbDiv else Ucode.pbusDiv)) :
    enterDividers s = s := by
  rw [enterDividers, goto, ← hn, ← hu]

/-! ### The obligations -/

/-- Settles O28: a legal configuration has no fault, and `min(U)` is the least oscillator in use. -/
theorem validatePasses : Obligations.ValidatePasses := by
  intro s k hlegal hk hleast
  rw [exec_uValidate_of_legal hlegal, minInUse_of_least hk hleast]
  rfl

/-- Settles O32: no match makes `SEARCH` answer `Unsat`; a choice that breaks a limit has the fault
of the first limit it breaks. -/
theorem deriveFaultsInOrder : Obligations.DeriveFaultsInOrder := by
  intro s halt hhalt
  have hfatal (code : FaultCode) : halt code = .next (raiseFatal code s) := hhalt code
  simp only [hfatal]
  refine ⟨fun hm hunsat => ?_, fun c hc => ⟨fun hcpu => ?_, fun hcpu husb => ?_⟩⟩
  · have hmode : s.pllMode ≠ modeReserved := by rw [hm]; decide
    rw [exec_uDerive_of_mode hmode,
      deriveStep_of_unsat ((chosenTriple_of_synth hm).trans (search_eq_none_iff.mpr hunsat))]
  · exact exec_uDerive_of_rateFault hc (rateFault_of_not_cpuRateLegal hcpu)
  · exact exec_uDerive_of_rateFault hc (rateFault_of_not_usbRateLegal hcpu husb)

/-- Settles O39: the list written is `domainRates`; by the CPU limit no clock divided down from the
PLL's exceeds a word. -/
theorem cacheHoldsExactFloors : Obligations.CacheHoldsExactFloors := by
  intro s hok hlegal hderived
  have hagrees := cacheAgrees_domainRates (Params.ok_facts hok) hlegal hderived
  exact ⟨domainRates s, length_domainRates s, rfl, cacheAgrees_congr hagrees rfl rfl rfl⟩

/-- Settles O58: the phase's run, from a state that stands at its entry. -/
theorem dividersPhaseTrace : Obligations.DividersPhaseTrace := by
  intro s sched hok hb hn hu hsched
  obtain ⟨n, hrun⟩ := issues_dividers (s := s) ⟨hok, hb⟩
  rw [enterDividers_eq_self hn hu] at hrun
  exact ⟨BitVec.ofNat 4 n, hrun.runFor_eq hsched⟩

end Sys2Proof.Proofs

/-! PROOFS. The statements of 43_control.md: `next_osc`, the checks of `U_VALIDATE` in their order,
and the refusals of a command word; then the obligations. -/

namespace Sys2Proof.Proofs

open Sys2Proof.Machine Sys2Proof.Safety

/-! ### `next_osc` (R130) -/

/-- What `next_osc` finds is in use, and the list is ascending, so no later entry is smaller. -/
theorem nextOsc_eq_some_iff {s : State} {k j : BitVec 2} :
    nextOsc s k = some j ↔
      (InUse s j ∧ k.toNat < j.toNat ∧ ∀ i, InUse s i → k.toNat < i.toNat → j.toNat ≤ i.toNat) := by
  refine ⟨fun h => ?_, fun ⟨hj, hlt, hleast⟩ => nextOsc_of_least hj hlt hleast⟩
  obtain ⟨hlt, before, after, hlist, hbefore⟩ := List.find?_eq_some_iff_append.mp h
  have hj : InUse s j := mem_inUse.mp (hlist ▸ by simp)
  refine ⟨hj, of_decide_eq_true hlt, fun i hi hki => ?_⟩
  have hmem : i ∈ before ++ j :: after := hlist ▸ mem_inUse.mpr hi
  obtain hbelow | hhere | habove : i ∈ before ∨ i = j ∨ i ∈ after := by simpa using hmem
  · exact absurd hki (by simpa using hbefore i hbelow)
  · exact Nat.le_of_eq (congrArg _ hhere.symm)
  · exact Nat.le_of_lt ((inUse_around hlist).2 i habove)

theorem nextOsc_eq_none_iff {s : State} {k : BitVec 2} :
    nextOsc s k = none ↔ ∀ i, InUse s i → i.toNat ≤ k.toNat := by
  refine ⟨fun h i hi => ?_, nextOsc_of_last⟩
  simpa using List.find?_eq_none.mp h i (mem_inUse.mpr hi)

/-! ### The checks of `U_VALIDATE` in their order (R131, R142) -/

theorem exec_uValidate_of_fault {s : State} {code : FaultCode} (h : validateFault s = some code) :
    exec .uValidate s = .next (raiseFatal code s) := by
  simp only [exec, execUValidate, h]

theorem validateFault_of_reserved {s : State} (hm : s.pllMode = modeReserved) :
    validateFault s = some .badMode := if_pos hm

section
variable {s : State} (hm : s.pllMode ≠ modeReserved)
include hm

theorem validateFault_of_osc (h : ∃ k, InUse s k ∧ ¬ OscLegal s k) :
    validateFault s = some .inputRange := by
  obtain ⟨k, huse, hbad⟩ := h
  have hosc : ¬ (inUse s).all (oscInRange s) = true := fun hall =>
    hbad (all_oscInRange_iff.mp hall k huse)
  rw [validateFault, if_neg hm, if_pos hosc]

variable (hosc : ∀ k, InUse s k → OscLegal s k)
include hosc

/-- The three checks of the dividers stand one after the other and have one code. -/
theorem validateFault_of_dividers (h : ¬ (CpuDivLegal s ∧ UsbDivLegal s ∧ BusDivsLegal s)) :
    validateFault s = some .invalidDivider := by
  rw [← cpuDivLegal_iff, ← usbDivLegal_iff, ← pbusAllLegal_iff] at h
  rw [validateFault, if_neg hm, if_neg (not_not.mpr (all_oscInRange_iff.mpr hosc))]
  split_ifs with hcpu husb hbus
  · exact absurd ⟨hcpu, husb, hbus⟩ h
  · rfl
  · rfl
  · rfl

/-- Once every other check has passed, the pair's check is the answer. -/
theorem validateFault_eq_fixedFault (hcpu : CpuDivLegal s) (husb : UsbDivLegal s)
    (hbus : BusDivsLegal s) : validateFault s = fixedFault s := by
  simp only [validateFault, hm, all_oscInRange_iff.mpr hosc, cpuDivLegal_iff.mpr hcpu,
    usbDivLegal_iff.mpr husb, pbusAllLegal_iff.mpr hbus, not_true_eq_false, if_false]

end

section
variable {p : Params} {fin m n : Nat}

theorem checkFixedPair_of_not_inRange
    (h : ¬ (p.mMin ≤ m ∧ m ≤ p.mMax ∧ p.nMin ≤ n ∧ n ≤ p.nMax)) :
    checkFixedPair p fin m n = .mnRange := by
  obtain ⟨hcheck, -⟩ | ⟨-, hrange, -⟩ | ⟨-, hrange, -⟩ := checkFixedPair_cases p fin m n
  · exact hcheck
  · exact absurd hrange h
  · exact absurd hrange h

theorem checkFixedPair_of_not_pairLegal
    (hrange : p.mMin ≤ m ∧ m ≤ p.mMax ∧ p.nMin ≤ n ∧ n ≤ p.nMax) (h : ¬ PairLegal p fin m n) :
    checkFixedPair p fin m n = .fccoRange := by
  obtain ⟨-, hnot⟩ | ⟨-, hlegal⟩ | ⟨hcheck, -⟩ := checkFixedPair_cases p fin m n
  · exact absurd hrange hnot
  · exact absurd hlegal h
  · exact hcheck

end

theorem fixedFault_of_mnRange {s : State} (hm : s.pllMode = modeFixed)
    (h : checkFixedPair s.params (finOf s) s.fixedMN.m.toNat s.fixedMN.n.toNat = .mnRange) :
    fixedFault s = some .mnRange := by
  rw [fixedFault, if_pos hm, h]

theorem fixedFault_of_fccoRange {s : State} (hm : s.pllMode = modeFixed)
    (h : checkFixedPair s.params (finOf s) s.fixedMN.m.toNat s.fixedMN.n.toNat = .fccoRange) :
    fixedFault s = some .fccoRange := by
  rw [fixedFault, if_pos hm, h]

/-! ### Every command word passes through acceptance (R125) -/

theorem exec_command_accepted {i : Instr} (hi : i.format = .cmd32) (s : State) :
    ∃ illegal reinit body, exec i s = .next (acceptCommand illegal reinit body s) := by
  cases i with
  | nop => exact ⟨_, _, _, rfl⟩
  | init => exact ⟨_, _, _, rfl⟩
  | synth => exact ⟨_, _, _, rfl⟩
  | checkFixed => exact ⟨_, _, _, rfl⟩
  | getRate d => exact ⟨_, _, _, rfl⟩
  | _ => cases hi

/-- So does a word that decodes to no command. -/
theorem hostCommand_accepted (v : Word) (s : State) :
    ∃ illegal reinit body, hostCommand exec v s = .next (acceptCommand illegal reinit body s) := by
  cases hd : decodeCmd v with
  | ok i =>
    rw [hostCommand_of_ok hd]
    exact exec_command_accepted (decodeCmd_format hd) s
  | error e => exact ⟨true, false, id, by simp only [hostCommand, hd, refuseIllegal]⟩

theorem hostCommand_of_halted {s : State} (v : Word) (hh : s.halted = true) :
    hostCommand exec v s = .next (reject .halted s) := by
  obtain ⟨_, _, _, haccept⟩ := hostCommand_accepted v s
  rw [haccept, acceptCommand_halted hh]

theorem hostCommand_of_busy {s : State} (v : Word) (hh : s.halted = false) (hb : s.busy = true) :
    hostCommand exec v s = .next (reject .busy s) := by
  obtain ⟨_, _, _, haccept⟩ := hostCommand_accepted v s
  rw [haccept, acceptCommand_busy hh hb]

theorem exec_init_of_initDone {s : State} (hh : s.halted = false) (hb : s.busy = false)
    (hi : s.initDone = true) : exec .init s = .next (reject .reinit s) := by
  simp only [exec, execInit, hi, acceptCommand_reinit hh hb]

/-! ### The obligations -/

/-- Settles O27: the list is the filtered `0..3`, which holds `CLK_SRC.SRC`. -/
theorem inUseAscending : Obligations.InUseAscending := by
  intro s
  obtain ⟨after, hcons⟩ := inUse_eq_cons s
  have hne : inUse s ≠ [] := hcons ▸ List.cons_ne_nil _ _
  exact ⟨fun _ => mem_inUse, inUse_sorted s, hne, fun _ _ => nextOsc_eq_some_iff,
    fun _ => nextOsc_eq_none_iff⟩

/-- Settles O29: each code is the fault of the first check that fails, and `raiseFatal` is all that
`U_VALIDATE` then does. -/
theorem validateFaultsInOrder : Obligations.ValidateFaultsInOrder := by
  intro s halt hhalt
  have hraise {code : FaultCode} (h : validateFault s = some code) :
      exec .uValidate s = halt code := (exec_uValidate_of_fault h).trans (hhalt code).symm
  refine ⟨fun hm => hraise (validateFault_of_reserved hm), fun hm =>
    ⟨fun hosc => hraise (validateFault_of_osc hm hosc), fun hosc =>
      ⟨fun hdiv => hraise (validateFault_of_dividers hm hosc hdiv),
        fun hcpu husb hbus hfixed => ?_⟩⟩⟩
  have hpair : validateFault s = fixedFault s :=
    validateFault_eq_fixedFault hm hosc hcpu husb hbus
  refine ⟨fun hrange => hraise ?_, fun hrange hfcco => hraise ?_⟩
  · exact hpair.trans (fixedFault_of_mnRange hfixed (checkFixedPair_of_not_inRange hrange))
  · exact hpair.trans
      (fixedFault_of_fccoRange hfixed (checkFixedPair_of_not_pairLegal hrange hfcco))

/-- Settles O18: whatever the word decodes to, acceptance looks at `HALTED` and `BUSY` first. -/
theorem commandRefusals : Obligations.CommandRefusals := by
  refine fun s v => ⟨hostCommand_of_halted v, hostCommand_of_busy v, fun hh hb hi hv => ?_⟩
  subst hv
  have hdecode : decodeCmd 0x00000001 = .ok .init := rfl
  calc windowWrite exec 0x000 0x00000001 s
    _ = hostCommand exec 0x00000001 s := windowWrite_cmd _
    _ = exec .init s := hostCommand_of_ok hdecode
    _ = .next { s with cerr := .reinit } := exec_init_of_initDone hh hb hi

/-- Settles O40: by the definition of `execUIdle`. -/
theorem idleChangesNothing : Obligations.IdleChangesNothing := fun _ => rfl

end Sys2Proof.Proofs

/-! PROOFS. The statements of 60_exceptions.md: what a halted block and a busy one refuse, then the
obligations. -/

namespace Sys2Proof.Proofs

open Sys2Proof.Machine Sys2Proof.Safety

/-! ### A block that refuses every command and every write (R140) -/

/-- The block refuses whatever the host asks of it, with this code: `HALTED` is looked at before
`BUSY` (R58, R125). -/
inductive RefusesWith (s : State) : CmdError → Prop
  | halted (hh : s.halted = true) : RefusesWith s .halted
  | busy (hh : s.halted = false) (hb : s.busy = true) : RefusesWith s .busy

/-- Nothing of the block but `CERR` changes, and `CERR` only to this code (R140). -/
def RefusedStep (code : CmdError) (s t : State) : Prop :=
  ∃ c e, t = { s with cerr := c, env := e } ∧ (c = s.cerr ∨ c = code)

theorem RefusedStep.of_env (code : CmdError) (s : State) (e : Environment) :
    RefusedStep code s { s with env := e } := ⟨s.cerr, e, rfl, .inl rfl⟩

theorem RefusedStep.of_reject {code : CmdError} {s t : State} {e : Environment}
    (h : t = reject code { s with env := e }) : RefusedStep code s t := ⟨code, e, h, .inr rfl⟩

theorem RefusesWith.of_env {s : State} {code : CmdError} (h : RefusesWith s code)
    (e : Environment) : RefusesWith { s with env := e } code := by
  cases h with
  | halted hh => exact .halted hh
  | busy hh hb => exact .busy hh hb

theorem acceptCommand_of_refuses {s : State} {code : CmdError} (h : RefusesWith s code)
    (illegal reinit : Bool) (body : State → State) :
    acceptCommand illegal reinit body s = reject code s := by
  cases h with
  | halted hh => exact acceptCommand_halted hh
  | busy hh hb => exact acceptCommand_busy hh hb

theorem exec_command_of_refuses {i : Instr} {s : State} {code : CmdError} (hi : i.format = .cmd32)
    (h : RefusesWith s code) : exec i s = .next (reject code s) := by
  obtain ⟨illegal, reinit, body, haccept⟩ := exec_command_accepted hi s
  rw [haccept, acceptCommand_of_refuses h]

theorem writeCfg_of_refuses {s : State} {code : CmdError} (h : RefusesWith s code) (r : Reg)
    (v : Word) : writeCfg r v s = reject code s := by
  cases h with
  | halted hh => simp [writeCfg, hh]
  | busy hh hb => simp [writeCfg, hh, hb]

theorem writeQry_of_refuses {s : State} {code : CmdError} (h : RefusesWith s code) (r : Reg)
    (v : Word) : writeQry r v s = reject code s := by
  cases h with
  | halted hh => simp [writeQry, hh]
  | busy hh hb => simp [writeQry, hh, hb]

/-- Whatever the host's access is, a refusing block refuses it or is not concerned by it. -/
theorem step_host_refused {s t : State} {code : CmdError} (hr : RefusesWith s code)
    (ht : nextTurn s = .host) (h : step s = .next t) : RefusedStep code s t := by
  obtain ⟨-, ⟨hreset, -⟩ | ⟨-, e, rfl⟩ | ⟨hblock, -⟩ | ⟨-, w, i, e, -, hd, hx⟩ | ⟨-, e, rfl⟩ |
    ⟨-, r, v, _, e, -, -, -, rfl⟩ | ⟨-, r, v, _, e, -, -, -, rfl⟩⟩ := step_cases h
  · simp [ht] at hreset
  · exact .of_env code s e
  · simp [ht] at hblock
  · rw [exec_command_of_refuses (decodeCmd_format hd) (hr.of_env e)] at hx
    exact .of_reject (Host.Outcome.next.inj hx).symm
  · exact .of_reject (acceptCommand_of_refuses (hr.of_env e) true false id)
  · exact .of_reject (writeCfg_of_refuses (hr.of_env e) r v)
  · exact .of_reject (writeQry_of_refuses (hr.of_env e) r v)

/-! ### A halted block takes no micro-step (R128, R137) -/

theorem busy_eq_false_of_halted {s : State} (hc : ControlInv s) (hh : s.halted = true) :
    s.busy = false := by
  by_contra hb
  obtain ⟨hrunning, -⟩ := hc.busyRuns (Bool.eq_true_of_not_eq_false hb)
  simp [hh] at hrunning

theorem step_block_of_rest {s t : State} (hb : s.busy = false) (ht : nextTurn s = .block)
    (h : step s = .next t) : ∃ e, t = { s with env := e } := by
  obtain henv | ⟨hbusy, -⟩ := step_block_cases ht h
  · exact henv
  · simp [hb] at hbusy

/-! ### The obligations -/

/-- Settles O45: the host is refused with `HALTED`, and a halted block is not busy, so its own turn
does nothing. -/
theorem haltedUntilReset : Obligations.HaltedUntilReset := by
  intro s t hc hh hn h
  cases ht : nextTurn s with
  | host => exact step_host_refused (.halted hh) ht h
  | block =>
    obtain ⟨e, rfl⟩ := step_block_of_rest (busy_eq_false_of_halted hc hh) ht h
    exact RefusedStep.of_env .halted s e
  | reset => exact absurd ht hn

/-- Settles O46: `BUSY` is looked at next after `HALTED`. -/
theorem hostRefusedWhileBusy : Obligations.HostRefusedWhileBusy := fun _ _ hh hb ht h =>
  step_host_refused (.busy hh hb) ht h

end Sys2Proof.Proofs

/-! PROOFS. The statements of 70_reset_and_hazards.md: what a refusal and a host's register write do
to the configuration, then the obligation. -/

namespace Sys2Proof.Proofs

open Sys2Proof.Machine Sys2Proof.Safety

/-! ### What keeps the configuration (R25, R58, R156) -/

theorem SameButCerr.configView_eq {s t : State} (h : SameButCerr s t) :
    configView t = configView s := by
  obtain ⟨_, _, rfl⟩ := h
  rfl

theorem refuseIllegal_configView (s : State) : configView (refuseIllegal s) = configView s := by
  obtain ⟨c, hc, -⟩ | ⟨-, -, hillegal, -⟩ := acceptCommand_cases true false id s
  · rw [refuseIllegal, hc]
    exact (SameButCerr.of_reject c s).configView_eq
  · cases hillegal

/-- A write to a `CFG` register is refused and stores nothing, unless the block is open to it. -/
theorem writeCfg_configView (r : Reg) (v : Word) (s : State) :
    configView (writeCfg r v s) = configView s ∨
      (s.halted = false ∧ s.busy = false ∧ s.initDone = false) := by
  obtain ⟨c, hc, -⟩ | ⟨hh, hb, hi, -⟩ := writeCfg_cases r v s
  · exact .inl (hc ▸ (SameButCerr.of_reject c s).configView_eq)
  · exact .inr ⟨hh, hb, hi⟩

theorem writeQry_configView {r : Reg} (hr : regClass r = .qry) (v : Word) (s : State) :
    configView (writeQry r v s) = configView s := by
  obtain ⟨c, hc, -⟩ | ⟨-, -, hw⟩ := writeQry_cases r v s
  · exact hc ▸ (SameButCerr.of_reject c s).configView_eq
  · exact hw ▸ storeReg_qry_configView hr v s

/-- The host's next access writes a `CFG` register of a block that is neither halted nor busy nor
done with `INIT`. -/
def OpenCfgWrite (s : State) : Prop :=
  nextTurn s = .host ∧ s.halted = false ∧ s.busy = false ∧ s.initDone = false ∧
    ∃ off v r, s.env.hostQueue.head? = some (.write (s.params.blockBase + off) 4 v) ∧
      regAt s.params.numPbus off = some r ∧ regClass r = .cfg

/-- No instruction owns a `CFG` register, so a step short of a reset keeps the configuration unless
it stores into one. -/
theorem step_configView {s t : State} (hn : NotReset s) (h : step s = .next t) :
    configView t = configView s ∨ OpenCfgWrite s := by
  obtain ⟨-, ⟨hr, -⟩ | ⟨-, e, rfl⟩ | ⟨-, -, i, e, -, hx⟩ | ⟨-, w, i, e, -, -, hx⟩ | ⟨-, e, rfl⟩ |
    ⟨ht, r, v, off, e, hq, hat, hc, rfl⟩ | ⟨-, r, v, _, e, -, -, hc, rfl⟩⟩ := step_cases h
  · exact absurd hr hn
  · exact .inl rfl
  · exact .inl (exec_ownersOnly hx).of_env.config
  · exact .inl (exec_ownersOnly hx).of_env.config
  · exact .inl (refuseIllegal_configView { s with env := e })
  · obtain hkept | ⟨hh, hb, hi⟩ := writeCfg_configView r v { s with env := e }
    · exact .inl hkept
    · exact .inr ⟨ht, hh, hb, hi, off, v, r, hq, hat, hc⟩
  · exact .inl (writeQry_configView hc v { s with env := e })

/-! ### The obligation -/

/-- Settles O44: a step that keeps the configuration keeps every `CFG` register. -/
theorem configurationLock : Obligations.ConfigurationLock := fun _ _ hn h hchanged =>
  (step_configView hn h).resolve_left fun hv => hchanged (sameConfig_of_configView hv)

end Sys2Proof.Proofs
